-- ==== Sys2Proof/Word.lean ====
section
/-! DEFINITION. The words of the KSD block and their plainest operations: the 40-bit command word
(30_encoding.md R80), the 32-bit response word (R87), key codes (R85), the levels of a group of
lines (20_memory.md R60), the decode table's type (R85). Bit 0 is the least significant bit of
every value (00_scope.md R6). -/

namespace Sys2Proof

/-- A command word `cmd[39:0]` (R80). -/
abbrev CommandWord := BitVec 40

/-- A response word `resp` (R87). -/
abbrev Response := BitVec 32

/-- A key code: a key 0..15, or 0x1F for "no key" (R85). -/
abbrev KeyCode := BitVec 5

/-- The decode table: the entry in row `r`, column `c` is the key 0..15 of that position (R85). -/
abbrev Keymap := Vector (Vector (BitVec 4) 4) 4

/-- The sentinel "no key", `KEY_NONE` (R5). -/
def keyNone : KeyCode := 0x1F

/-- A bit as a response word (R87: "1 if … else 0"). -/
def bitResponse (b : Bool) : Response := if b then 1 else 0

end Sys2Proof
end

