-- ==== Sys2Proof/Syntax.lean ====
section
/-! DEFINITION. The 40 commands of the block, one constructor per row of spec/opcode_table.json
(30_encoding.md R81). An operand is held as the integer R82 makes of it: microseconds, hertz and an
index as natural numbers, millivolts as an integer. -/

namespace Sys2Proof

/-- The three timer instances (10_state.md R23). -/
inductive TimerId where
  | scan
  | deb
  | smp
  deriving DecidableEq, Repr

/-- The commands of R81. -/
inductive Instr where
  | tmrInitScan (p : Nat)
  | tmrCheckScan
  | tmrAdvnScan
  | tmrAdvpScan
  | tmrSetpScan (p : Nat)
  | tmrEnScan
  | tmrDisScan
  | tmrInitDeb (p : Nat)
  | tmrCheckDeb
  | tmrAdvnDeb
  | tmrAdvpDeb
  | tmrSetpDeb (p : Nat)
  | tmrEnDeb
  | tmrDisDeb
  | tmrInitSmp (p : Nat)
  | tmrCheckSmp
  | tmrAdvnSmp
  | tmrAdvpSmp
  | tmrSetpSmp (p : Nat)
  | tmrEnSmp
  | tmrDisSmp
  | tmrSetf (hz : Nat)
  | kpInit (deb : Nat)
  | kpTick
  | kpRowadv
  | kpSample
  | kpDecode
  | kpCapture
  | kpRelease
  | kpGetkey
  | kpSetdz
  | kpClrdz
  | kpIsdz
  | kpAck
  | kpStat
  | kpHist (i : Nat)
  | kpEn
  | kpDis
  | dacSet (mv : Int)
  | dacTick (mv : Int)
  deriving DecidableEq, Repr

/-- `TMR.INIT t, p` for each timer (R81). -/
def Instr.tmrInit : TimerId → Nat → Instr
  | .scan, p => .tmrInitScan p
  | .deb, p => .tmrInitDeb p
  | .smp, p => .tmrInitSmp p

/-- `TMR.CHECK t` for each timer (R81). -/
def Instr.tmrCheck : TimerId → Instr
  | .scan => .tmrCheckScan
  | .deb => .tmrCheckDeb
  | .smp => .tmrCheckSmp

/-- `TMR.ADVN t` for each timer (R81). -/
def Instr.tmrAdvn : TimerId → Instr
  | .scan => .tmrAdvnScan
  | .deb => .tmrAdvnDeb
  | .smp => .tmrAdvnSmp

/-- `TMR.ADVP t` for each timer (R81). -/
def Instr.tmrAdvp : TimerId → Instr
  | .scan => .tmrAdvpScan
  | .deb => .tmrAdvpDeb
  | .smp => .tmrAdvpSmp

/-- `TMR.SETP t, p` for each timer (R81). -/
def Instr.tmrSetp : TimerId → Nat → Instr
  | .scan, p => .tmrSetpScan p
  | .deb, p => .tmrSetpDeb p
  | .smp, p => .tmrSetpSmp p

/-- `TMR.EN t` for each timer (R81). -/
def Instr.tmrEn : TimerId → Instr
  | .scan => .tmrEnScan
  | .deb => .tmrEnDeb
  | .smp => .tmrEnSmp

/-- `TMR.DIS t` for each timer (R81). -/
def Instr.tmrDis : TimerId → Instr
  | .scan => .tmrDisScan
  | .deb => .tmrDisDeb
  | .smp => .tmrDisSmp

end Sys2Proof
end

