-- ==== Sys2Proof/WellFormed.lean ====
section
/-! DEFINITION. The commands that have a word: those whose operand fits the 32-bit operand field in
the way 30_encoding.md R82 reads it (unsigned for a period, a frequency and an index; two's
complement for millivolts). -/

namespace Sys2Proof

/-- An unsigned operand fits `cmd[31:0]` (R82). -/
def fitsUnsigned32 (n : Nat) : Bool := decide (n < 2 ^ 32)

/-- A millivolt operand fits `cmd[31:0]` read as signed (R82). -/
def fitsSigned32 (v : Int) : Bool := decide (-2147483648 ≤ v ∧ v ≤ 2147483647)

/-- The instruction is one a command word can carry. -/
def Instr.wellFormed : Instr → Bool
  | .tmrInitScan p => fitsUnsigned32 p
  | .tmrCheckScan => true
  | .tmrAdvnScan => true
  | .tmrAdvpScan => true
  | .tmrSetpScan p => fitsUnsigned32 p
  | .tmrEnScan => true
  | .tmrDisScan => true
  | .tmrInitDeb p => fitsUnsigned32 p
  | .tmrCheckDeb => true
  | .tmrAdvnDeb => true
  | .tmrAdvpDeb => true
  | .tmrSetpDeb p => fitsUnsigned32 p
  | .tmrEnDeb => true
  | .tmrDisDeb => true
  | .tmrInitSmp p => fitsUnsigned32 p
  | .tmrCheckSmp => true
  | .tmrAdvnSmp => true
  | .tmrAdvpSmp => true
  | .tmrSetpSmp p => fitsUnsigned32 p
  | .tmrEnSmp => true
  | .tmrDisSmp => true
  | .tmrSetf hz => fitsUnsigned32 hz
  | .kpInit deb => fitsUnsigned32 deb
  | .kpTick => true
  | .kpRowadv => true
  | .kpSample => true
  | .kpDecode => true
  | .kpCapture => true
  | .kpRelease => true
  | .kpGetkey => true
  | .kpSetdz => true
  | .kpClrdz => true
  | .kpIsdz => true
  | .kpAck => true
  | .kpStat => true
  | .kpHist i => fitsUnsigned32 i
  | .kpEn => true
  | .kpDis => true
  | .dacSet mv => fitsSigned32 mv
  | .dacTick mv => fitsSigned32 mv

end Sys2Proof
end

