-- ==== Sys2Proof/Decode.lean ====
section
/-! DEFINITION. The decoder of command words (30_encoding.md R80 to R82, R91), total on every 40-bit
word, rejecting a reserved opcode byte by name; and the encoder, written from the same table. -/

namespace Sys2Proof

/-- Why a command word has no instruction: its opcode byte is not in the table of R81. It is
raised by `decode` alone; the machine ignores such a command, as R91 says. -/
inductive DecodeError where
  | reservedOpcode (opcode : BitVec 8)
  deriving DecidableEq, Repr

/-- The opcode byte, `cmd[39:32]` (R80). -/
def opcodeOf (w : CommandWord) : BitVec 8 := w.extractLsb' 32 8

/-- The operand field, `cmd[31:0]` (R80). -/
def operandOf (w : CommandWord) : BitVec 32 := w.extractLsb' 0 32

/-- The instruction of an opcode byte and an operand field (R81, R82): the operand is read as an
unsigned integer, or as a two's complement one for millivolts, and ignored where the operation takes
none. -/
def decodeFields (opcode : BitVec 8) (operand : BitVec 32) : Except DecodeError Instr :=
  match opcode.toNat with
  | 0x00 => .ok (.tmrInitScan operand.toNat)
  | 0x01 => .ok .tmrCheckScan
  | 0x02 => .ok .tmrAdvnScan
  | 0x03 => .ok .tmrAdvpScan
  | 0x04 => .ok (.tmrSetpScan operand.toNat)
  | 0x05 => .ok .tmrEnScan
  | 0x06 => .ok .tmrDisScan
  | 0x10 => .ok (.tmrInitDeb operand.toNat)
  | 0x11 => .ok .tmrCheckDeb
  | 0x12 => .ok .tmrAdvnDeb
  | 0x13 => .ok .tmrAdvpDeb
  | 0x14 => .ok (.tmrSetpDeb operand.toNat)
  | 0x15 => .ok .tmrEnDeb
  | 0x16 => .ok .tmrDisDeb
  | 0x20 => .ok (.tmrInitSmp operand.toNat)
  | 0x21 => .ok .tmrCheckSmp
  | 0x22 => .ok .tmrAdvnSmp
  | 0x23 => .ok .tmrAdvpSmp
  | 0x24 => .ok (.tmrSetpSmp operand.toNat)
  | 0x25 => .ok .tmrEnSmp
  | 0x26 => .ok .tmrDisSmp
  | 0x27 => .ok (.tmrSetf operand.toNat)
  | 0x40 => .ok (.kpInit operand.toNat)
  | 0x41 => .ok .kpTick
  | 0x42 => .ok .kpRowadv
  | 0x43 => .ok .kpSample
  | 0x44 => .ok .kpDecode
  | 0x45 => .ok .kpCapture
  | 0x46 => .ok .kpRelease
  | 0x47 => .ok .kpGetkey
  | 0x48 => .ok .kpSetdz
  | 0x49 => .ok .kpClrdz
  | 0x4A => .ok .kpIsdz
  | 0x4B => .ok .kpAck
  | 0x4C => .ok .kpStat
  | 0x4D => .ok (.kpHist operand.toNat)
  | 0x4E => .ok .kpEn
  | 0x4F => .ok .kpDis
  | 0x80 => .ok (.dacSet operand.toInt)
  | 0x81 => .ok (.dacTick operand.toInt)
  | _ => .error (.reservedOpcode opcode)

/-- The instruction a command word stands for (R80, R81), or the reserved opcode byte it holds
(R91). -/
def decode (w : CommandWord) : Except DecodeError Instr :=
  decodeFields (opcodeOf w) (operandOf w)

/-- The opcode byte of an instruction (R81). -/
def opcodeByte : Instr → BitVec 8
  | .tmrInitScan _ => 0x00
  | .tmrCheckScan => 0x01
  | .tmrAdvnScan => 0x02
  | .tmrAdvpScan => 0x03
  | .tmrSetpScan _ => 0x04
  | .tmrEnScan => 0x05
  | .tmrDisScan => 0x06
  | .tmrInitDeb _ => 0x10
  | .tmrCheckDeb => 0x11
  | .tmrAdvnDeb => 0x12
  | .tmrAdvpDeb => 0x13
  | .tmrSetpDeb _ => 0x14
  | .tmrEnDeb => 0x15
  | .tmrDisDeb => 0x16
  | .tmrInitSmp _ => 0x20
  | .tmrCheckSmp => 0x21
  | .tmrAdvnSmp => 0x22
  | .tmrAdvpSmp => 0x23
  | .tmrSetpSmp _ => 0x24
  | .tmrEnSmp => 0x25
  | .tmrDisSmp => 0x26
  | .tmrSetf _ => 0x27
  | .kpInit _ => 0x40
  | .kpTick => 0x41
  | .kpRowadv => 0x42
  | .kpSample => 0x43
  | .kpDecode => 0x44
  | .kpCapture => 0x45
  | .kpRelease => 0x46
  | .kpGetkey => 0x47
  | .kpSetdz => 0x48
  | .kpClrdz => 0x49
  | .kpIsdz => 0x4A
  | .kpAck => 0x4B
  | .kpStat => 0x4C
  | .kpHist _ => 0x4D
  | .kpEn => 0x4E
  | .kpDis => 0x4F
  | .dacSet _ => 0x80
  | .dacTick _ => 0x81

/-- The operand field of an instruction (R82); 0 where the operation takes none, as the assembler
emits. -/
def operandField : Instr → BitVec 32
  | .tmrInitScan p => BitVec.ofNat 32 p
  | .tmrSetpScan p => BitVec.ofNat 32 p
  | .tmrInitDeb p => BitVec.ofNat 32 p
  | .tmrSetpDeb p => BitVec.ofNat 32 p
  | .tmrInitSmp p => BitVec.ofNat 32 p
  | .tmrSetpSmp p => BitVec.ofNat 32 p
  | .tmrSetf hz => BitVec.ofNat 32 hz
  | .kpInit deb => BitVec.ofNat 32 deb
  | .kpHist i => BitVec.ofNat 32 i
  | .dacSet mv => BitVec.ofInt 32 mv
  | .dacTick mv => BitVec.ofInt 32 mv
  | .tmrCheckScan => 0
  | .tmrAdvnScan => 0
  | .tmrAdvpScan => 0
  | .tmrEnScan => 0
  | .tmrDisScan => 0
  | .tmrCheckDeb => 0
  | .tmrAdvnDeb => 0
  | .tmrAdvpDeb => 0
  | .tmrEnDeb => 0
  | .tmrDisDeb => 0
  | .tmrCheckSmp => 0
  | .tmrAdvnSmp => 0
  | .tmrAdvpSmp => 0
  | .tmrEnSmp => 0
  | .tmrDisSmp => 0
  | .kpTick => 0
  | .kpRowadv => 0
  | .kpSample => 0
  | .kpDecode => 0
  | .kpCapture => 0
  | .kpRelease => 0
  | .kpGetkey => 0
  | .kpSetdz => 0
  | .kpClrdz => 0
  | .kpIsdz => 0
  | .kpAck => 0
  | .kpStat => 0
  | .kpEn => 0
  | .kpDis => 0

/-- The command word of an instruction (R80): opcode byte in bits 39:32, operand in bits 31:0. -/
def encode (i : Instr) : CommandWord := opcodeByte i ++ operandField i

/-- A row's bits as spec/opcode_table.json numbers them, laid out as the one 40-bit command word
they are (R80); bits above `nbits` are 0. -/
def tableWord (nbits w : Nat) : CommandWord := BitVec.ofNat 40 (w % 2 ^ nbits)

/-- The instruction the decoder reads from a table row's word. -/
def decodeTableWord (nbits w : Nat) : Option Instr :=
  match decode (tableWord nbits w) with
  | .ok i => some i
  | .error _ => none

end Sys2Proof
end

