-- ==== Sys2Proof/Config.lean ====
section
/-! DEFINITION. What an implementation of the block fixes (00_scope.md R5): the open parameters as
plain data, their defaults, the reference decode table of 30_encoding.md R86, and the model's free
values: the open decode table (the column of its key 5, and its other entries) and the DAC code that
reset leaves unspecified. -/

namespace Sys2Proof

/-- The parameters the model takes (R5, R22). They are fixed for a block: no step changes them. -/
structure Params where
  /-- `CLK_W`, the width in bits of the clock and of every deadline; legal 18..32. -/
  clkW : Nat
  /-- `SCAN_PERIOD_US`, the scan period `KP.INIT` loads, in microseconds. -/
  scanPeriodUs : Nat
  /-- `N_SAMPLES`, samples per waveform cycle, used by `TMR.SETF` only. -/
  nSamples : Nat
  /-- `KEYMAP`, the decode table (R85). -/
  keymap : Keymap
  deriving DecidableEq, Repr

/-- The clock widths a block may have: `CLK_W` in 18..32 (R5). -/
abbrev Params.LegalClock (p : Params) : Prop := 18 ≤ p.clkW ∧ p.clkW ≤ 32

/-- The decode tables a block may have (30_encoding.md R85): some column `c5` of row 3 holds the key 5
(point 4). That the values are in 0..15 (point 2) is in the type, and nothing says that they differ
(point 3). -/
abbrev Params.LegalKeymap (p : Params) : Prop := ∃ c5 : Fin 4, (p.keymap.get 3).get c5 = 5

/-- The parameters a block may have (R5, R85). DEDUCED (log 1): a waveform cycle has at least one
sample, so that the quotient of R111 exists. -/
abbrev Params.Legal (p : Params) : Prop := p.LegalClock ∧ 1 ≤ p.nSamples ∧ p.LegalKeymap

/-- The column `c5` of row 3 that holds the key 5 in the block's decode table; the source does not say
which (R85 point 4). A free value: nothing can evaluate it (DESIGN CHOICE, log 2). -/
opaque Config.keyFiveColumn : Fin 4

/-- The other keys of the block's decode table, which the source does not print (R85: OPEN). A free
value: nothing can evaluate it (DESIGN CHOICE, log 2). -/
opaque Config.freeKey : Fin 4 → Fin 4 → BitVec 4

/-- The key at row `r`, column `c` of the open decode table: any table that R85 point 4 admits. -/
def Config.openKey (r c : Fin 4) : BitVec 4 :=
  if r = 3 ∧ c = Config.keyFiveColumn then 5 else Config.freeKey r c

/-- The `n`-th unspecified value of `dac_code`: what a hardware reset leaves on the DAC lines (R191,
U6). A free value: nothing can evaluate it (DESIGN CHOICE, log 3). -/
opaque Config.freeDacCode : Nat → BitVec 8

/-- Row `r` of the open decode table. -/
def Config.openKeyRow (r : Fin 4) : Vector (BitVec 4) 4 :=
  #v[Config.openKey r 0, Config.openKey r 1, Config.openKey r 2, Config.openKey r 3]

/-- The open decode table (R85). -/
def Config.openKeymap : Keymap :=
  #v[Config.openKeyRow 0, Config.openKeyRow 1, Config.openKeyRow 2, Config.openKeyRow 3]

/-- The defaults of R5: `CLK_W` 32, `SCAN_PERIOD_US` 2000, `N_SAMPLES` 16; `KEYMAP` open. -/
def Config.defaultParams : Params :=
  { clkW := 32, scanPeriodUs := 2000, nSamples := 16, keymap := Config.openKeymap }

/-- `KEYMAP_REF(r, c) = (4·r + c + 8) mod 16`, the reference table of R86, written out. It is used
by test vectors only. -/
def Config.keymapRef : Keymap :=
  #v[#v[8, 9, 10, 11], #v[12, 13, 14, 15], #v[0, 1, 2, 3], #v[4, 5, 6, 7]]

end Sys2Proof
end

