-- ==== Sys2Proof/Machine/State.lean ====
section
/-! DEFINITION. The state of the KSD block (10_state.md), plain data, and its reset value
(70_reset_and_hazards.md R190). The last five fields are the model's own: the parameters and inputs
that the spec's step takes as arguments (R22), the events the host still has to issue, and the
counter of free values. -/

namespace Sys2Proof.Machine

/-- Why the block stops with a fault: nothing. The block raises no exception, fault, trap or abort
for any command, operand, state or input (60_exceptions.md R170), so the type has no constructor and
no definition of the model can raise one. -/
inductive Fault
  deriving DecidableEq, Repr

/-- Why the model gives an instruction no meaning. -/
inductive Refusal where
  /-- Raised by an arm of `exec` whose instruction has no meaning yet; safe. Every arm has one, so
  nothing raises it. -/
  | notModelled (mnemonic : String)
  deriving DecidableEq, Repr

/-- A software timer's record (R23 to R26). Clock values and periods are integers modulo
`M = 2^CLK_W`, with `CLK_W` a parameter, so they are natural numbers kept below `M` (log 8). -/
structure Timer where
  /-- `next_deadline`, a clock value (R24). -/
  nextDeadline : Nat
  /-- `period`, microseconds (R25). -/
  period : Nat
  /-- `enabled` (R26). -/
  enabled : Bool
  deriving DecidableEq, Repr

/-- The 16 digital lines (20_memory.md R60). -/
inductive Line where
  | row (r : Fin 4)
  | col (c : Fin 4)
  | dac (i : Fin 8)
  deriving DecidableEq, Repr

/-- A line's direction (R44). -/
inductive Direction where
  | input
  | output
  deriving DecidableEq, Repr

/-- A line's pull setting (R44). -/
inductive Pull where
  | none
  | up
  | down
  deriving DecidableEq, Repr

/-- A line's configuration (R44). -/
structure LineConfig where
  direction : Direction
  pull : Pull
  deriving DecidableEq, Repr

/-- What the environment puts on the COL lines during one command (20_memory.md R63, R64; log 7). -/
inductive Columns where
  /-- Four given levels, bit `c` on line `COLc`: the free input of R63. -/
  | levels (v : BitVec 4)
  /-- The answer of an ideal key matrix to the rows driven (R64, the `cols(rp)` of R92): bit `c` of
  entry `r` says that the key at row `r`, column `c` is closed. -/
  | matrix (closed : Vector (BitVec 4) 4)
  deriving DecidableEq, Repr

/-- What the host does to the block in one step (60_exceptions.md R178; log 5). -/
inductive HostEvent where
  /-- `rst`: a hardware reset (R190). -/
  | reset
  /-- No command is presented (R182). -/
  | idle
  /-- A command word with the inputs sampled for it: the clock and the COL lines (R80, R22). -/
  | command (cmd : CommandWord) (now : Nat) (cols : Columns)
  deriving DecidableEq, Repr

/-- The state of the block. -/
structure State where
  /-- `T[SCAN]`, the row-scan timer (R23). -/
  scan : Timer
  /-- `T[DEB]`, the debounce timer (R23). -/
  deb : Timer
  /-- `T[SMP]`, the sample timer (R23). -/
  smp : Timer
  /-- `kp_enabled` (R29). -/
  kpEnabled : Bool
  /-- `row_counter` (R30). -/
  rowCounter : BitVec 2
  /-- `row_pattern` (R31). -/
  rowPattern : BitVec 4
  /-- `captured_columns` (R32). -/
  capturedColumns : BitVec 4
  /-- `raw_code` (R33). -/
  rawCode : BitVec 8
  /-- `decoded_key` (R34). -/
  decodedKey : KeyCode
  /-- `hist[0..9]`, entry 0 the most recent (R35). -/
  hist : Vector KeyCode 10
  /-- `double_zero_flag` (R36). -/
  doubleZeroFlag : Bool
  /-- `key_pending_flag` (R37). -/
  keyPendingFlag : Bool
  /-- `debounce_active` (R38). -/
  debounceActive : Bool
  /-- `dac_code` (R43). -/
  dacCode : BitVec 8
  /-- The levels driven on ROW3..ROW0, the port `ROW[3:0]` (R62, R178). -/
  rowLines : BitVec 4
  /-- The levels driven on DAC7..DAC0, the port `DAC[7:0]` (R65, R178). -/
  dacLines : BitVec 8
  /-- Direction and pull of the 16 lines, by logical number (R44, R60). -/
  lineCfg : Vector LineConfig 16
  /-- The response word of the last command, the port `resp` (R87, R178). -/
  resp : Response
  /-- The model's own: the parameters of the block (R5, R22; log 1). -/
  params : Params
  /-- The model's own: the clock value sampled for the command in progress (R7; log 6). -/
  now : Nat
  /-- The model's own: the COL lines during the command in progress (R63; log 7). -/
  cols : Columns
  /-- The model's own: what the host still has to issue, next first (R193; log 5). -/
  host : List HostEvent
  /-- The model's own: how many values of `Config.freeDacCode` are drawn before the one in
  `dacCode` (log 3). -/
  draws : Nat
  deriving DecidableEq, Repr

/-- A timer at reset: deadline 0, period 1, disabled (R190). -/
def Timer.reset : Timer := { nextDeadline := 0, period := 1, enabled := false }

/-- The configuration of an output line (R44). -/
def LineConfig.driven : LineConfig := { direction := .output, pull := .none }

/-- The configuration of a column line (R44). -/
def LineConfig.sensed : LineConfig := { direction := .input, pull := .down }

/-- The line configuration at reset: ROW0..3 output, COL0..3 input with pull-down, DAC0..7 output
(R44, R60, R190). -/
def resetLineCfg : Vector LineConfig 16 :=
  #v[.driven, .driven, .driven, .driven, .sensed, .sensed, .sensed, .sensed,
     .driven, .driven, .driven, .driven, .driven, .driven, .driven, .driven]

/-- The reset state of R190 for the parameters `p`, with the `n`-th free value on the DAC lines
(R191; log 3). DESIGN CHOICE: the response port reads 0 until the first command (log 4), and so do
the sampled inputs (log 6, log 7), which no command reads before it overwrites them. -/
def State.resetWith (p : Params) (n : Nat) : State :=
  { scan := Timer.reset, deb := Timer.reset, smp := Timer.reset
    kpEnabled := false
    rowCounter := 0, rowPattern := 0b0001
    capturedColumns := 0, rawCode := 0, decodedKey := keyNone
    hist := Vector.replicate 10 keyNone
    doubleZeroFlag := false, keyPendingFlag := false, debounceActive := false
    dacCode := Config.freeDacCode n
    rowLines := 0b0001
    dacLines := Config.freeDacCode n
    lineCfg := resetLineCfg
    resp := 0
    params := p
    now := 0
    cols := .levels 0
    host := []
    draws := n }

/-- The machine right after reset (R190), with the default parameters (R5) and nothing placed for
the host to issue. -/
def State.reset : State := State.resetWith Config.defaultParams 0

end Sys2Proof.Machine
end

