-- ==== Sys2Proof/Machine/Ops.lean ====
section
/-! DEFINITION. The shared operations of the block: clock arithmetic (40_timer.md R101, R102), the
timer records and their comparator (R103), the digital lines (20_memory.md R60 to R65), the key
history (R67), the response (30_encoding.md R87), hardware reset (70_reset_and_hazards.md R190), and
how a command takes its inputs (00_scope.md R7). The block takes no exception and returns from none
(60_exceptions.md R170, R175), so there is no such operation here. -/

namespace Sys2Proof.Machine

/-- What one step or one command answers. -/
abbrev Result := Host.Outcome State Fault Refusal

/-! ### Clock arithmetic -/

/-- `M = 2^CLK_W`, the clock modulus (R5). -/
def modulus (p : Params) : Nat := 2 ^ p.clkW

/-- `tadd(a, b) = (a + b) mod M` (R7, R101). -/
def tadd (p : Params) (a b : Nat) : Nat := (a + b) % modulus p

/-- `tdiff(a, b) = (a − b) mod M`, in `0 .. M−1` (R7). -/
def tdiff (p : Params) (a b : Nat) : Nat := (((a : Int) - (b : Int)) % (modulus p : Int)).toNat

/-- `reached(n, d)`: the deadline `d` has been reached at clock value `n`, by the half-range
comparison (R101). -/
def reached (p : Params) (n d : Nat) : Bool := decide (tdiff p n d < modulus p / 2)

/-- `PERIOD_MAX = M/2 − 1` (R5). -/
def periodMax (p : Params) : Nat := modulus p / 2 - 1

/-- `clampP(x) = max(PERIOD_MIN, min(x, PERIOD_MAX))` with `PERIOD_MIN` = 1 (R7, R102). -/
def clampP (p : Params) (x : Nat) : Nat := max 1 (min x (periodMax p))

/-! ### Timers -/

/-- `T[t]` (R23). -/
def timerOf (s : State) : TimerId → Timer
  | .scan => s.scan
  | .deb => s.deb
  | .smp => s.smp

/-- The state with `T[t]` replaced. -/
def setTimer (t : TimerId) (x : Timer) (s : State) : State :=
  match t with
  | .scan => { s with scan := x }
  | .deb => { s with deb := x }
  | .smp => { s with smp := x }

/-- The comparator `check(t)` (R103). It writes nothing (R100). -/
def check (s : State) (t : TimerId) : Bool :=
  (timerOf s t).enabled && reached s.params s.now (timerOf s t).nextDeadline

/-- Creation of timer `t` with period operand `p` (R104). -/
def timerInit (t : TimerId) (p : Nat) (s : State) : State :=
  setTimer t
    { period := clampP s.params p
      nextDeadline := tadd s.params s.now (clampP s.params p)
      enabled := true } s

/-- `advance_from_now()` (R106). -/
def timerAdvanceFromNow (t : TimerId) (s : State) : State :=
  setTimer t
    { timerOf s t with nextDeadline := tadd s.params s.now (timerOf s t).period } s

/-- `advance_by_period()` (R107). -/
def timerAdvanceByPeriod (t : TimerId) (s : State) : State :=
  setTimer t
    { timerOf s t with
      nextDeadline := tadd s.params (timerOf s t).nextDeadline (timerOf s t).period } s

/-- `set_period(p)`, through the clamp (R108, R102). -/
def timerSetPeriod (t : TimerId) (p : Nat) (s : State) : State :=
  setTimer t { timerOf s t with period := clampP s.params p } s

/-- `enable()` and `disable()` (R109, R110). -/
def timerSetEnabled (t : TimerId) (b : Bool) (s : State) : State :=
  setTimer t { timerOf s t with enabled := b } s

/-! ### Digital lines -/

/-- The logical number of a line (R60): 0..3 ROW, 4..7 COL, 8..15 DAC. -/
def lineNumber : Line → Fin 16
  | .row r => ⟨r.val, by omega⟩
  | .col c => ⟨4 + c.val, by omega⟩
  | .dac i => ⟨8 + i.val, by omega⟩

/-- The levels the environment puts on COL3..COL0 when the ROW lines carry `rows` (R63; for a
matrix, R64: column `c` reads 1 exactly when some active row `r` has the key (r, c) closed). -/
def columnsRead (c : Columns) (rows : BitVec 4) : BitVec 4 :=
  match c with
  | .levels v => v
  | .matrix m =>
    (if rows.getLsbD 0 then m[0] else 0) ||| (if rows.getLsbD 1 then m[1] else 0) |||
    (if rows.getLsbD 2 then m[2] else 0) ||| (if rows.getLsbD 3 then m[3] else 0)

/-- `LineRead(l)` (R7, R60): no side effect (R66). -/
def lineRead (s : State) : Line → Bool
  | .row r => s.rowLines.getLsbD r.val
  | .col c => (columnsRead s.cols s.rowLines).getLsbD c.val
  | .dac i => s.dacLines.getLsbD i.val

/-- `LineWrite(l, v)` (R7, R60) for the output line `l` of a group (ROW0..3 or DAC0..7) whose levels
are `x`. The column lines are inputs; the block drives none of them. -/
def lineWrite {w : Nat} (x : BitVec w) (l : Nat) (v : Bool) : BitVec w :=
  if v then x ||| (1#w <<< l) else x &&& ~~~(1#w <<< l)

/-- The levels of a group of output lines after `LineWrite` of each bit of `v` to its line, for the
lines listed (R62, R65). -/
def driveLines {w : Nat} (v x : BitVec w) (lines : List Nat) : BitVec w :=
  lines.foldl (fun y l => lineWrite y l (v.getLsbD l)) x

/-- `for r in 0..3: LineWrite(ROWr, row_pattern[r])` (R62). -/
def driveRows (s : State) : State :=
  { s with rowLines := driveLines s.rowPattern s.rowLines [0, 1, 2, 3] }

/-- `for i in 0..7: LineWrite(DACi, dac_code[i])` (R65). -/
def driveDac (s : State) : State :=
  { s with dacLines := driveLines s.dacCode s.dacLines [0, 1, 2, 3, 4, 5, 6, 7] }

/-- `LineConfigure(l, dir, pull)` (R7, R44). -/
def lineConfigure (cfg : Vector LineConfig 16) (l : Line) (c : LineConfig) :
    Vector LineConfig 16 :=
  cfg.set (lineNumber l).val c (lineNumber l).isLt

/-- `for r in 0..3: LineConfigure(ROWr, output, none)`, then `for c in 0..3: LineConfigure(COLc,
input, pull-down)` (R128). -/
def configureKeypadLines (cfg : Vector LineConfig 16) : Vector LineConfig 16 :=
  [0, 1, 2, 3].foldl (fun u c => lineConfigure u (.col c) .sensed)
    ([0, 1, 2, 3].foldl (fun u r => lineConfigure u (.row r) .driven) cfg)

/-- `col_in = LineRead(COL3) ++ LineRead(COL2) ++ LineRead(COL1) ++ LineRead(COL0)` (R63). -/
def colIn (s : State) : BitVec 4 :=
  BitVec.ofBool (lineRead s (.col 3)) ++ BitVec.ofBool (lineRead s (.col 2)) ++
  BitVec.ofBool (lineRead s (.col 1)) ++ BitVec.ofBool (lineRead s (.col 0))

/-! ### Key history -/

/-- The history with a key pushed onto its front, the oldest dropped (R67). -/
def histPush (k : KeyCode) (h : Vector KeyCode 10) : Vector KeyCode 10 :=
  #v[k, h[0], h[1], h[2], h[3], h[4], h[5], h[6], h[7], h[8]]

/-- History entry `i`; an index of 10 or more reads the sentinel (R67, R141). -/
def histEntry (h : Vector KeyCode 10) (i : Nat) : KeyCode :=
  if hi : i < 10 then h[i] else keyNone

/-! ### Commands -/

/-- `resp <- r` (R7). -/
def respond (r : Response) (s : State) : State := { s with resp := r }

/-- The end of every command: the next state, with the response word set (R87, R175). -/
def answer (r : Response) (s : State) : Result := .next (respond r s)

/-- A command with a reserved opcode byte changes no state and returns 0 (R91). -/
def ignoreReserved (s : State) : Result := answer 0 s

/-- The inputs of a command are sampled once, at its start (R7, R80): the clock port carries an
element of `0 .. M−1` (R178). -/
def sampleInputs (now : Nat) (cols : Columns) (s : State) : State :=
  { s with now := now % modulus s.params, cols := cols }

/-- Hardware reset (R190). The parameters are the block's own and the host goes on with what it has
to issue; the DAC code is a fresh free value (R191; log 3). -/
def hardwareReset (s : State) : State :=
  { State.resetWith s.params (s.draws + 1) with host := s.host }

end Sys2Proof.Machine
end

