-- ==== Sys2Proof/Machine/Operands.lean ====
section
/-! DEFINITION. What becomes of operands and of raw codes: the period of a frequency (40_timer.md
R111), the quantiser (42_dac.md R161), one-hot nibbles, raw codes and their decoding (30_encoding.md
R83 to R85). The decoding of an operand field into an integer (R82) is Decode.lean's; the clamp of a
period (R102) and a history index (R141) are Ops.lean's. -/

namespace Sys2Proof.Machine

/-- The period of the sample timer for `hz` ≠ 0: `clampP(floor(1000000 / (N_SAMPLES · hz)))`, the
product without overflow (R111). -/
def frequencyPeriod (p : Params) (hz : Nat) : Nat := clampP p (1000000 / (p.nSamples * hz))

/-- `sat(mv)`: saturation to the quantiser's range, −5000..4400 mV (R161). -/
def saturate (mv : Int) : Int := if mv < -5000 then -5000 else if 4400 < mv then 4400 else mv

/-- `quant(mv) = floor((sat(mv) + 5000) · 255 / 9400)` (R161). -/
def quant (mv : Int) : BitVec 8 := BitVec.ofNat 8 ((saturate mv + 5000) * 255 / 9400).toNat

/-- The index of the set bit of a one-hot nibble, `idx` (R7); none where `onehot4` is false. -/
def oneHotIndex (v : BitVec 4) : Option (Fin 4) :=
  if v = 1 then some 0
  else if v = 2 then some 1
  else if v = 4 then some 2
  else if v = 8 then some 3
  else none

/-- `onehot4(v)` (R7). -/
def onehot4 (v : BitVec 4) : Bool := (oneHotIndex v).isSome

/-- `raw_code = (captured_columns << 4) | row_pattern`: columns in the high nibble (R83). -/
def rawCodeOf (columns rows : BitVec 4) : BitVec 8 :=
  (columns.setWidth 8 <<< 4) ||| rows.setWidth 8

/-- The row nibble of a raw code, `raw_code[3:0]` (R83). -/
def rawRows (raw : BitVec 8) : BitVec 4 := raw.extractLsb' 0 4

/-- The column nibble of a raw code, `raw_code[7:4]` (R83). -/
def rawColumns (raw : BitVec 8) : BitVec 4 := raw.extractLsb' 4 4

/-- A raw code is valid when both nibbles are one-hot (R84). -/
def validRaw (raw : BitVec 8) : Bool := onehot4 (rawRows raw) && onehot4 (rawColumns raw)

/-- `KEYMAP(r, c)` (R85). -/
def keyAt (m : Keymap) (r c : Fin 4) : BitVec 4 := (m.get r).get c

/-- The key code of a raw code: `zext_5(KEYMAP(idx(rows), idx(columns)))` when it is valid, none
otherwise (R84, R123). -/
def decodeRaw (m : Keymap) (raw : BitVec 8) : Option KeyCode :=
  match oneHotIndex (rawRows raw), oneHotIndex (rawColumns raw) with
  | some r, some c => some ((keyAt m r c).setWidth 5)
  | _, _ => none

end Sys2Proof.Machine
end

