-- ==== Sys2Proof/Machine/Flags.lean ====
section
/-! DEFINITION. The block's flags (10_state.md R29, R36 to R38): the enable gate of the keypad
(41_keypad.md R120), the flags the host sets and clears (R136, R137, R139, R142, R143), and the
status word that shows them (30_encoding.md R89). The block has no arithmetic condition codes
(10_state.md R21). -/

namespace Sys2Proof.Machine

/-- Enable gating: with `kp_enabled` = 0 the operation changes no state at all (R120). -/
def whenEnabled (f : State → State) (s : State) : State := if s.kpEnabled then f s else s

/-- `double_zero_flag <- b` (R136, R137). -/
def setDoubleZero (b : Bool) (s : State) : State := { s with doubleZeroFlag := b }

/-- `key_pending_flag <- 0` (R139). -/
def clearPending (s : State) : State := { s with keyPendingFlag := false }

/-- `kp_enabled <- b` (R142, R143). -/
def setKeypadEnabled (b : Bool) (s : State) : State := { s with kpEnabled := b }

/-- The status word (R89, R140), its fields from the highest bits down. -/
def statusWord (s : State) : Response :=
  (0 : BitVec 5) ++ BitVec.ofBool s.kpEnabled ++ BitVec.ofBool s.doubleZeroFlag ++
  BitVec.ofBool s.keyPendingFlag ++ BitVec.ofBool s.debounceActive ++ s.rowCounter ++
  s.rowPattern ++ s.capturedColumns ++ s.rawCode ++ s.decodedKey

end Sys2Proof.Machine
end

