-- ==== Sys2Proof/Machine/Phases.lean ====
section
/-! DEFINITION. The phases of the keypad state machine (41_keypad.md R121 to R126) and the update of
the DAC output stage (42_dac.md R162), from which the commands are built. -/

namespace Sys2Proof.Machine

/-- `P_ROWADV` (R121): the next row, one-hot, driven on the ROW lines. -/
def pRowAdv (s : State) : State :=
  driveRows { s with
    rowCounter := s.rowCounter + 1
    rowPattern := (1 : BitVec 4) <<< (s.rowCounter + 1).toNat }

/-- `P_SAMPLE` (R122). -/
def pSample (s : State) : State := { s with capturedColumns := colIn s }

/-- `P_DECODE` (R123): `raw_code` is always rewritten, `decoded_key` only when it is valid
(R124). -/
def pDecode (s : State) : State :=
  { s with
    rawCode := rawCodeOf s.capturedColumns s.rowPattern
    decodedKey :=
      (decodeRaw s.params.keymap (rawCodeOf s.capturedColumns s.rowPattern)).getD s.decodedKey }

/-- The condition of the capture phase (R125; 90_conflicts.md C1). -/
def captures (s : State) : Bool :=
  decide (s.capturedColumns ≠ 0) && validRaw s.rawCode && !s.debounceActive

/-- `P_CAPTURE` (R125): push the key, flag it, restart the debounce timer, latch the lock-out. -/
def pCapture (s : State) : State :=
  if captures s then
    timerAdvanceFromNow .deb
      { s with
        hist := histPush s.decodedKey s.hist
        keyPendingFlag := true
        debounceActive := true }
  else s

/-- `P_RELEASE` (R126). -/
def pRelease (s : State) : State :=
  if s.debounceActive && check s .deb then
    { s with debounceActive := false, rawCode := 0, decodedKey := keyNone }
  else s

/-- The scan branch of `KP.TICK` (R129): advance the scan timer, the row, sample, decode, capture. -/
def scanBranch (s : State) : State :=
  pCapture (pDecode (pSample (pRowAdv (timerAdvanceByPeriod .scan s))))

/-- The body of `KP.TICK` (R129). -/
def keypadTick (s : State) : State :=
  pRelease (if check s .scan then scanBranch s else s)

/-- The body of `KP.INIT` (R128): lines, keypad registers, history, flags, timers SCAN and DEB, in
the order of the rule. -/
def keypadInit (deb : Nat) (s : State) : State :=
  timerInit .deb deb
    (timerInit .scan s.params.scanPeriodUs
      { driveRows
          { s with
            lineCfg := configureKeypadLines s.lineCfg
            kpEnabled := true
            rowCounter := 0
            rowPattern := 0b0001 } with
        capturedColumns := 0
        rawCode := 0
        decodedKey := keyNone
        hist := Vector.replicate 10 keyNone
        doubleZeroFlag := false
        keyPendingFlag := false
        debounceActive := false })

/-- `dac_code <- quant(mv)`, driven on the DAC lines (R162, R163). -/
def writeDac (mv : Int) (s : State) : State := driveDac { s with dacCode := quant mv }

end Sys2Proof.Machine
end

