-- ==== Sys2Proof/Machine/Dac.lean ====
section
/-! DEFINITION. The meanings of the DAC commands (42_dac.md R162, R163). -/

namespace Sys2Proof.Machine

/-- `DAC.SET mv` (R162): it does not look at the sample timer. -/
def execDacSet (mv : Int) (s : State) : Result := answer 0 (writeDac mv s)

/-- `DAC.TICK mv` (R163): take a sample when the sample timer has expired, otherwise hold. -/
def execDacTick (mv : Int) (s : State) : Result :=
  if check s .smp then answer 1 (writeDac mv (timerAdvanceByPeriod .smp s)) else answer 0 s

end Sys2Proof.Machine
end

