-- ==== Sys2Proof/Machine/Keypad.lean ====
section
/-! DEFINITION. The meanings of the keypad commands (41_keypad.md R128 to R143), one per row of the
opcode table. -/

namespace Sys2Proof.Machine

/-- `KP.INIT deb` (R128). -/
def execKpInit (deb : Nat) (s : State) : Result := answer 0 (keypadInit deb s)

/-- `KP.TICK` (R129). -/
def execKpTick (s : State) : Result := answer 0 (whenEnabled keypadTick s)

/-- `KP.ROWADV` (R130). -/
def execKpRowadv (s : State) : Result := answer 0 (whenEnabled pRowAdv s)

/-- `KP.SAMPLE` (R131). -/
def execKpSample (s : State) : Result := answer 0 (whenEnabled pSample s)

/-- `KP.DECODE` (R132). -/
def execKpDecode (s : State) : Result := answer 0 (whenEnabled pDecode s)

/-- `KP.CAPTURE` (R133). -/
def execKpCapture (s : State) : Result := answer 0 (whenEnabled (fun u => pCapture (pDecode u)) s)

/-- `KP.RELEASE` (R134). -/
def execKpRelease (s : State) : Result := answer 0 (whenEnabled pRelease s)

/-- `KP.GETKEY` (R135): the most recently captured key. -/
def execKpGetkey (s : State) : Result := answer (s.hist[0].setWidth 32) s

/-- `KP.SETDZ` (R136). -/
def execKpSetdz (s : State) : Result := answer 0 (whenEnabled (setDoubleZero true) s)

/-- `KP.CLRDZ` (R137). -/
def execKpClrdz (s : State) : Result := answer 0 (whenEnabled (setDoubleZero false) s)

/-- `KP.ISDZ` (R138). -/
def execKpIsdz (s : State) : Result := answer (bitResponse s.doubleZeroFlag) s

/-- `KP.ACK` (R139). -/
def execKpAck (s : State) : Result := answer 0 (whenEnabled clearPending s)

/-- `KP.STAT` (R140). -/
def execKpStat (s : State) : Result := answer (statusWord s) s

/-- `KP.HIST i` (R141). -/
def execKpHist (i : Nat) (s : State) : Result := answer ((histEntry s.hist i).setWidth 32) s

/-- `KP.EN` (R142). -/
def execKpEn (s : State) : Result := answer 0 (setKeypadEnabled true s)

/-- `KP.DIS` (R143). -/
def execKpDis (s : State) : Result := answer 0 (setKeypadEnabled false s)

end Sys2Proof.Machine
end

