-- ==== Sys2Proof/Machine/Timers.lean ====
section
/-! DEFINITION. The meanings of the timer commands (40_timer.md R104 to R111), one per row of the
opcode table. None has a guard but `TMR.SETF` with `hz` = 0 (R103, R111). -/

namespace Sys2Proof.Machine

/-- `TMR.INIT SCAN, p` (R104). -/
def execTmrInitScan (p : Nat) (s : State) : Result := answer 0 (timerInit .scan p s)

/-- `TMR.CHECK SCAN` (R105). -/
def execTmrCheckScan (s : State) : Result := answer (bitResponse (check s .scan)) s

/-- `TMR.ADVN SCAN` (R106). -/
def execTmrAdvnScan (s : State) : Result := answer 0 (timerAdvanceFromNow .scan s)

/-- `TMR.ADVP SCAN` (R107). -/
def execTmrAdvpScan (s : State) : Result := answer 0 (timerAdvanceByPeriod .scan s)

/-- `TMR.SETP SCAN, p` (R108). -/
def execTmrSetpScan (p : Nat) (s : State) : Result := answer 0 (timerSetPeriod .scan p s)

/-- `TMR.EN SCAN` (R109). -/
def execTmrEnScan (s : State) : Result := answer 0 (timerSetEnabled .scan true s)

/-- `TMR.DIS SCAN` (R110). -/
def execTmrDisScan (s : State) : Result := answer 0 (timerSetEnabled .scan false s)

/-- `TMR.INIT DEB, p` (R104). -/
def execTmrInitDeb (p : Nat) (s : State) : Result := answer 0 (timerInit .deb p s)

/-- `TMR.CHECK DEB` (R105). -/
def execTmrCheckDeb (s : State) : Result := answer (bitResponse (check s .deb)) s

/-- `TMR.ADVN DEB` (R106). -/
def execTmrAdvnDeb (s : State) : Result := answer 0 (timerAdvanceFromNow .deb s)

/-- `TMR.ADVP DEB` (R107). -/
def execTmrAdvpDeb (s : State) : Result := answer 0 (timerAdvanceByPeriod .deb s)

/-- `TMR.SETP DEB, p` (R108). -/
def execTmrSetpDeb (p : Nat) (s : State) : Result := answer 0 (timerSetPeriod .deb p s)

/-- `TMR.EN DEB` (R109). -/
def execTmrEnDeb (s : State) : Result := answer 0 (timerSetEnabled .deb true s)

/-- `TMR.DIS DEB` (R110). -/
def execTmrDisDeb (s : State) : Result := answer 0 (timerSetEnabled .deb false s)

/-- `TMR.INIT SMP, p` (R104). -/
def execTmrInitSmp (p : Nat) (s : State) : Result := answer 0 (timerInit .smp p s)

/-- `TMR.CHECK SMP` (R105). -/
def execTmrCheckSmp (s : State) : Result := answer (bitResponse (check s .smp)) s

/-- `TMR.ADVN SMP` (R106). -/
def execTmrAdvnSmp (s : State) : Result := answer 0 (timerAdvanceFromNow .smp s)

/-- `TMR.ADVP SMP` (R107). -/
def execTmrAdvpSmp (s : State) : Result := answer 0 (timerAdvanceByPeriod .smp s)

/-- `TMR.SETP SMP, p` (R108). -/
def execTmrSetpSmp (p : Nat) (s : State) : Result := answer 0 (timerSetPeriod .smp p s)

/-- `TMR.EN SMP` (R109). -/
def execTmrEnSmp (s : State) : Result := answer 0 (timerSetEnabled .smp true s)

/-- `TMR.DIS SMP` (R110). -/
def execTmrDisSmp (s : State) : Result := answer 0 (timerSetEnabled .smp false s)

/-- `TMR.SETF hz` (R111): a frequency of 0 leaves the period as it was. -/
def execTmrSetf (hz : Nat) (s : State) : Result :=
  answer 0
    (if hz = 0 then s
     else setTimer .smp { timerOf s .smp with period := frequencyPeriod s.params hz } s)

end Sys2Proof.Machine
end

