-- ==== Sys2Proof/Machine/Dispatch.lean ====
section
/-! DEFINITION. exec: one arm per command, each a direct call of its meaning. -/

namespace Sys2Proof.Machine

def exec (i : Instr) (s : State) : Host.Outcome State Fault Refusal :=
  match i with
  | .tmrInitScan p => Sys2Proof.Machine.execTmrInitScan p s
  | .tmrCheckScan => Sys2Proof.Machine.execTmrCheckScan s
  | .tmrAdvnScan => Sys2Proof.Machine.execTmrAdvnScan s
  | .tmrAdvpScan => Sys2Proof.Machine.execTmrAdvpScan s
  | .tmrSetpScan p => Sys2Proof.Machine.execTmrSetpScan p s
  | .tmrEnScan => Sys2Proof.Machine.execTmrEnScan s
  | .tmrDisScan => Sys2Proof.Machine.execTmrDisScan s
  | .tmrInitDeb p => Sys2Proof.Machine.execTmrInitDeb p s
  | .tmrCheckDeb => Sys2Proof.Machine.execTmrCheckDeb s
  | .tmrAdvnDeb => Sys2Proof.Machine.execTmrAdvnDeb s
  | .tmrAdvpDeb => Sys2Proof.Machine.execTmrAdvpDeb s
  | .tmrSetpDeb p => Sys2Proof.Machine.execTmrSetpDeb p s
  | .tmrEnDeb => Sys2Proof.Machine.execTmrEnDeb s
  | .tmrDisDeb => Sys2Proof.Machine.execTmrDisDeb s
  | .tmrInitSmp p => Sys2Proof.Machine.execTmrInitSmp p s
  | .tmrCheckSmp => Sys2Proof.Machine.execTmrCheckSmp s
  | .tmrAdvnSmp => Sys2Proof.Machine.execTmrAdvnSmp s
  | .tmrAdvpSmp => Sys2Proof.Machine.execTmrAdvpSmp s
  | .tmrSetpSmp p => Sys2Proof.Machine.execTmrSetpSmp p s
  | .tmrEnSmp => Sys2Proof.Machine.execTmrEnSmp s
  | .tmrDisSmp => Sys2Proof.Machine.execTmrDisSmp s
  | .tmrSetf hz => Sys2Proof.Machine.execTmrSetf hz s
  | .kpInit deb => Sys2Proof.Machine.execKpInit deb s
  | .kpTick => Sys2Proof.Machine.execKpTick s
  | .kpRowadv => Sys2Proof.Machine.execKpRowadv s
  | .kpSample => Sys2Proof.Machine.execKpSample s
  | .kpDecode => Sys2Proof.Machine.execKpDecode s
  | .kpCapture => Sys2Proof.Machine.execKpCapture s
  | .kpRelease => Sys2Proof.Machine.execKpRelease s
  | .kpGetkey => Sys2Proof.Machine.execKpGetkey s
  | .kpSetdz => Sys2Proof.Machine.execKpSetdz s
  | .kpClrdz => Sys2Proof.Machine.execKpClrdz s
  | .kpIsdz => Sys2Proof.Machine.execKpIsdz s
  | .kpAck => Sys2Proof.Machine.execKpAck s
  | .kpStat => Sys2Proof.Machine.execKpStat s
  | .kpHist n => Sys2Proof.Machine.execKpHist n s
  | .kpEn => Sys2Proof.Machine.execKpEn s
  | .kpDis => Sys2Proof.Machine.execKpDis s
  | .dacSet mv => Sys2Proof.Machine.execDacSet mv s
  | .dacTick mv => Sys2Proof.Machine.execDacTick mv s

end Sys2Proof.Machine
end

