-- ==== Sys2Proof/Machine/Perform.lean ====
section
/-! DEFINITION. How the block performs what the host does to it in one step: it decodes the command
word presented (30_encoding.md R80, R81), ignores a reserved opcode byte (R91), and is reset by
`rst` (70_reset_and_hazards.md R190). -/

namespace Sys2Proof.Machine

/-- One command word, on a state whose inputs are already sampled. -/
def performCommand (w : CommandWord) (s : State) : Result :=
  match decode w with
  | .ok i => exec i s
  | .error _ => ignoreReserved s

/-- One event of the host (R178). A command and its response are one atomic transition (R66); with
no command presented the block holds everything (R182). -/
def performEvent (e : HostEvent) (s : State) : Result :=
  match e with
  | .reset => .next (hardwareReset s)
  | .idle => .next s
  | .command w now cols => performCommand w (sampleInputs now cols s)

/-- The event that presents a table row's word at the inputs the state holds. -/
def wordEvent (s : State) (nbits w : Nat) : HostEvent :=
  .command (tableWord nbits w) s.now s.cols

end Sys2Proof.Machine
end

