-- ==== Sys2Proof/Machine/Step.lean ====
section
/-! DEFINITION. One step: the next thing the host does (10_state.md R20, 70_reset_and_hazards.md
R193). When the host has issued everything, the block holds its state (R182). -/

namespace Sys2Proof.Machine

/-- One step of the machine. -/
def step (s : State) : Host.Outcome State Fault Refusal :=
  match s.host with
  | [] => .next s
  | e :: rest => performEvent e { s with host := rest }

/-- `s` with a table row's instruction as the next thing the host issues (log 5). -/
def State.withFetchWord (s : State) (nbits w : Nat) : State :=
  { s with host := wordEvent s nbits w :: s.host }

end Sys2Proof.Machine
end

