-- ==== Sys2Proof/Machine/Pseudo.lean ====
section
/-! DEFINITION. The pseudo-operations of 30_encoding.md R93: each is a sequence of real commands that
the host issues, and in a poll the second command is issued only on the first one's response. -/

namespace Sys2Proof.Machine

/-- The pseudo-operations (R93). -/
inductive Pseudo where
  | tmrStart (t : TimerId)
  | tmrPollp (t : TimerId)
  | tmrPolln (t : TimerId)
  | kpScan
  deriving DecidableEq, Repr

/-- The commands the host issues first (R93). -/
def pseudoFirst : Pseudo → List Instr
  | .tmrStart t => [Instr.tmrAdvn t]
  | .tmrPollp t => [Instr.tmrCheck t]
  | .tmrPolln t => [Instr.tmrCheck t]
  | .kpScan => [.kpRowadv, .kpSample, .kpCapture, .kpRelease]

/-- The commands the host issues after it has seen the response of the last of those (R93: "if
`resp` = 1 then"). -/
def pseudoThen (r : Response) : Pseudo → List Instr
  | .tmrStart _ => []
  | .tmrPollp t => if r = 1 then [Instr.tmrAdvp t] else []
  | .tmrPolln t => if r = 1 then [Instr.tmrAdvn t] else []
  | .kpScan => []

/-- Commands performed one after another at the inputs the state holds. -/
def execAll : List Instr → State → Result
  | [], s => .next s
  | i :: rest, s =>
    match exec i s with
    | .next t => execAll rest t
    | .fault f => .fault f
    | .refused r => .refused r

end Sys2Proof.Machine
end

