-- ==== Sys2Proof/Safety.lean ====
section
/-! DEFINITION. What a sound state of the block is (10_state.md R24, R25, R39, R43, R44, R62, R65),
what the block never touches together (60_exceptions.md R172), and what the host owes it
(70_reset_and_hazards.md R192). -/

namespace Sys2Proof.Machine

/-- A timer record as R24 and R25 bound it. -/
abbrev Timer.Legal (p : Params) (t : Timer) : Prop :=
  t.nextDeadline < modulus p ∧ 1 ≤ t.period ∧ t.period ≤ periodMax p

/-- A key 0..15, or "no key" (R34, R35). -/
abbrev KeyOrNone (k : KeyCode) : Prop := k.toNat ≤ 15 ∨ k = keyNone

/-- The history's invariant (R39 (d)): every entry is a key or the sentinel, and the sentinel is
only at the old end. -/
abbrev HistoryShape (h : Vector KeyCode 10) : Prop :=
  (∀ i : Fin 10, KeyOrNone (h.get i)) ∧
  ∀ i j : Fin 10, i ≤ j → h.get i = keyNone → h.get j = keyNone

/-- A state the block can be in. -/
structure State.Inv (s : State) : Prop where
  /-- The parameters are legal ones (R5, R85). -/
  params : s.params.Legal
  /-- The sampled clock value is one the port can carry (R7, R178). -/
  now : s.now < modulus s.params
  /-- `T[SCAN]` (R24, R25). -/
  scan : Timer.Legal s.params s.scan
  /-- `T[DEB]` (R24, R25). -/
  deb : Timer.Legal s.params s.deb
  /-- `T[SMP]` (R24, R25). -/
  smp : Timer.Legal s.params s.smp
  /-- R39 (a). -/
  rowPattern : s.rowPattern = (1 : BitVec 4) <<< s.rowCounter.toNat
  /-- R39 (b). -/
  rowLines : s.rowLines = s.rowPattern
  /-- R39 (c). -/
  decodedKey : KeyOrNone s.decodedKey
  /-- R39 (d). -/
  hist : HistoryShape s.hist
  /-- R39 (e). -/
  rawCode : rawRows s.rawCode = 0 ∨ onehot4 (rawRows s.rawCode) = true
  /-- The DAC lines carry `dac_code` (R43, R65). -/
  dacLines : s.dacLines = s.dacCode
  /-- The line configuration is the one of R44. -/
  lineCfg : s.lineCfg = resetLineCfg

/-- `t` agrees with `s` on every keypad field, the ROW lines among them (R29 to R38, R62). -/
abbrev SameKeypad (s t : State) : Prop :=
  t.kpEnabled = s.kpEnabled ∧ t.rowCounter = s.rowCounter ∧ t.rowPattern = s.rowPattern ∧
  t.capturedColumns = s.capturedColumns ∧ t.rawCode = s.rawCode ∧
  t.decodedKey = s.decodedKey ∧ t.hist = s.hist ∧ t.doubleZeroFlag = s.doubleZeroFlag ∧
  t.keyPendingFlag = s.keyPendingFlag ∧ t.debounceActive = s.debounceActive ∧
  t.rowLines = s.rowLines

/-- `t` agrees with `s` on the DAC stage: the code and the eight lines (R43, R65). -/
abbrev SameDac (s t : State) : Prop := t.dacCode = s.dacCode ∧ t.dacLines = s.dacLines

/-- `t` agrees with `s` on the three timers. -/
abbrev SameTimers (s t : State) : Prop := t.scan = s.scan ∧ t.deb = s.deb ∧ t.smp = s.smp

/-- `t` agrees with `s` on what no command writes: the parameters (R22), the inputs sampled for the
command (R7), what the host still issues, the free values drawn. -/
abbrev SameInputs (s t : State) : Prop :=
  t.params = s.params ∧ t.now = s.now ∧ t.cols = s.cols ∧ t.host = s.host ∧ t.draws = s.draws

/-- `u` differs from `s` in the record of timer `t` and in the response at most. -/
abbrev TimerFrame (t : TimerId) (s u : State) : Prop :=
  (∀ t', t' ≠ t → timerOf u t' = timerOf s t') ∧ SameKeypad s u ∧ SameDac s u ∧
  u.lineCfg = s.lineCfg ∧ SameInputs s u

/-- The unit a command belongs to, `cmd[39:36]`: 0, 1, 2 the timers, 4 the keypad, 8 the DAC stage
(30_encoding.md R81). -/
def unitOf (i : Instr) : BitVec 4 := (opcodeByte i).extractLsb' 4 4

/-- The unit number of a timer, `cmd[39:36]` (30_encoding.md R81). -/
def timerUnit : TimerId → BitVec 4
  | .scan => 0
  | .deb => 1
  | .smp => 2

/-- The opcode byte is a command's that takes its operand from the operand field as `f` says (R80 to
R82). -/
abbrev EncodedWith (opcode : BitVec 8) (f : BitVec 32 → Instr) : Prop :=
  ∀ x : BitVec 32, decode (opcode ++ x) = .ok (f x)

/-- The opcode byte is a command's that ignores the operand field (R80 to R82). -/
abbrev EncodedAs (opcode : BitVec 8) (i : Instr) : Prop := EncodedWith opcode fun _ => i

/-- The nine commands that `kp_enabled` = 0 turns into no-ops (41_keypad.md R120). -/
def gatedCommands : List Instr :=
  [.kpTick, .kpRowadv, .kpSample, .kpDecode, .kpCapture, .kpRelease, .kpSetdz, .kpClrdz, .kpAck]

/-- A `KP.CAPTURE` of this state pushes a key (41_keypad.md R133, R125): the keypad is enabled, no
lock-out is set, one row is driven and one column asserted. -/
abbrev Pushes (s : State) : Prop :=
  s.kpEnabled = true ∧ s.debounceActive = false ∧
  ∃ r c : Fin 4, s.rowPattern = 1#4 <<< r.val ∧ s.capturedColumns = 1#4 <<< c.val

/-- The commands that accumulate when repeated, in this state (20_memory.md R66): `KP.CAPTURE` only
where it pushes. -/
def Accumulates (s : State) : Instr → Prop
  | .tmrAdvpScan | .tmrAdvpDeb | .tmrAdvpSmp | .kpRowadv | .kpTick | .dacTick _ => True
  | .kpCapture => Pushes s
  | _ => False

/-- An event that lets the history go on: neither a reset nor `KP.INIT` (41_keypad.md R147). -/
def KeepsHistory : HostEvent → Prop
  | .reset => False
  | .idle => True
  | .command w _ _ => ∀ i, decode w = .ok i → ∀ d, i ≠ .kpInit d

/-- The keys captured in a run of `k` steps, oldest first. A step captures where it sets the lock-out
(10_state.md R38), and the key captured is the decoded key it leaves (41_keypad.md R125). -/
def capturedKeys : Nat → State → List KeyCode
  | 0, _ => []
  | k + 1, s =>
    match step s with
    | .next u =>
      (if !s.debounceActive && u.debounceActive then [u.decodedKey] else []) ++ capturedKeys k u
    | .fault _ => []
    | .refused _ => []

/-- The commands that move the debounce deadline or open the lock-out by themselves: the timer
creation and advance commands on `DEB`, and `KP.INIT` (10_state.md R24, 41_keypad.md R128). -/
def movesDebounce : Instr → Bool
  | .kpInit _ | .tmrInitDeb _ | .tmrAdvnDeb | .tmrAdvpDeb => true
  | _ => false

/-- An event inside the debounce window of `s`: no reset, and a command only at a clock value that
has not reached the debounce deadline, and none that moves it (41_keypad.md R148). -/
def WindowEvent (s : State) : HostEvent → Prop
  | .reset => False
  | .idle => True
  | .command w n _ =>
    reached s.params (n % modulus s.params) s.deb.nextDeadline = false ∧
    ∀ i, decode w = .ok i → movesDebounce i = false

/-- `s` with another sample timer and another DAC stage (for 60_exceptions.md R172). -/
def withSampleUnit (x : Timer) (code lines : BitVec 8) (s : State) : State :=
  { s with smp := x, dacCode := code, dacLines := lines }

/-- `s` with the keypad, its ROW lines and its two timers taken from `k` (for R172). -/
def withKeypadUnit (k s : State) : State :=
  { s with
    scan := k.scan, deb := k.deb, kpEnabled := k.kpEnabled, rowCounter := k.rowCounter
    rowPattern := k.rowPattern, capturedColumns := k.capturedColumns, rawCode := k.rawCode
    decodedKey := k.decodedKey, hist := k.hist, doubleZeroFlag := k.doubleZeroFlag
    keyPendingFlag := k.keyPendingFlag, debounceActive := k.debounceActive
    rowLines := k.rowLines }

/-- A result with its next state changed. -/
def mapNext (f : State → State) : Result → Result
  | .next s => .next (f s)
  | .fault r => .fault r
  | .refused r => .refused r

/-- Which units the host has initialised since the last reset (R192). -/
structure Boot where
  keypad : Bool
  scan : Bool
  deb : Bool
  smp : Bool
  deriving DecidableEq, Repr

/-- Nothing is initialised after a reset (R190). -/
def Boot.none : Boot := { keypad := false, scan := false, deb := false, smp := false }

/-- What is initialised after a command (R192). -/
def Boot.after (b : Boot) : Instr → Boot
  | .kpInit _ => { b with keypad := true, scan := true, deb := true }
  | .tmrInitScan _ => { b with scan := true }
  | .tmrInitDeb _ => { b with deb := true }
  | .tmrInitSmp _ => { b with smp := true }
  | _ => b

/-- The host may issue the command now (R192): a legal debounce period in `KP.INIT`, no other keypad
command before it, no `DAC.TICK` before `TMR.INIT SMP`, no `TMR.EN` of a timer never initialised. -/
def Boot.allows (p : Params) (b : Boot) : Instr → Bool
  | .kpInit deb => decide (1 ≤ deb ∧ deb ≤ periodMax p)
  | .kpTick | .kpRowadv | .kpSample | .kpDecode | .kpCapture | .kpRelease | .kpGetkey | .kpSetdz
  | .kpClrdz | .kpIsdz | .kpAck | .kpStat | .kpHist _ | .kpEn | .kpDis => b.keypad
  | .dacTick _ => b.smp
  | .tmrEnScan => b.scan
  | .tmrEnDeb => b.deb
  | .tmrEnSmp => b.smp
  | _ => true

/-- A host that keeps the boot requirements of R192 in the events it issues, from `b` on. A command
with a reserved opcode byte initialises nothing. -/
def bootOrder (p : Params) (b : Boot) : List HostEvent → Bool
  | [] => true
  | .reset :: es => bootOrder p .none es
  | .idle :: es => bootOrder p b es
  | .command w _ _ :: es =>
    match decode w with
    | .ok i => b.allows p i && bootOrder p (b.after i) es
    | .error _ => bootOrder p b es

end Sys2Proof.Machine
end

