-- ==== Sys2Proof/Certificates/Slice0/Obligations.lean ====
section
/-! DEFINITION. The statements for the provers. -/

open Sys2Proof Sys2Proof.Machine

/-! ### Encoding -/

/-- Every well-formed command's word decodes to it, with its operand at every value the operand
field admits (30_encoding.md R80, R81, R82). -/
def Obligations.DecodeOfEncodeIsIdentity : Prop :=
  ∀ i : Instr, i.wellFormed = true → decode (encode i) = .ok i

/-- A word that decodes gives a well-formed command with the word's opcode byte; where the command
takes an operand, its field is the word's, and where it takes none the field is ignored (R82). -/
def Obligations.DecodedCommandsAreWellFormed : Prop :=
  ∀ (w : CommandWord) (i : Instr), decode w = .ok i →
    i.wellFormed = true ∧ opcodeByte i = opcodeOf w ∧
    (operandField i = operandOf w ∨
      operandField i = 0 ∧ ∀ x : BitVec 32, decode (opcodeOf w ++ x) = .ok i)

/-- The reserved opcode bytes are exactly those R91 lists by `unit` and `fn`, and a command that has
one changes no state and answers 0. -/
def Obligations.ReservedOpcodesAreIgnored : Prop :=
  ∀ (w : CommandWord) (s : State),
    let unit := (w.extractLsb' 36 4).toNat
    let fn := (w.extractLsb' 32 4).toNat
    ((∃ e, decode w = .error e) ↔
      (unit ∈ [3, 5, 6, 7, 9, 10, 11, 12, 13, 14, 15] ∨ (unit ∈ [0, 1] ∧ 7 ≤ fn) ∨
        (unit = 2 ∧ 8 ≤ fn) ∨ (unit = 8 ∧ 2 ≤ fn))) ∧
    ((∃ e, decode w = .error e) → performCommand w s = .next { s with resp := 0 })

/-- Words written out from the encodings of R80 to R82 decode to the commands they stand for
(95_test_vectors.md B1). -/
def Obligations.WordsOfEachUnitDecode : Prop :=
  decodeTableWord 40 0x00000007D0 = some (.tmrInitScan 2000) ∧
  decodeTableWord 40 0x200000F424 = some (.tmrInitSmp 62500) ∧
  decodeTableWord 40 0x14FFFFFFFF = some (.tmrSetpDeb 4294967295) ∧
  decodeTableWord 40 0x4100000000 = some .kpTick ∧
  decodeTableWord 40 0x4D00000009 = some (.kpHist 9) ∧
  decodeTableWord 40 0x80FFFFFED4 = some (.dacSet (-300))

/-! ### The step -/

/-- A step performs the command the host presents: `exec` of the decoded command, on the state with
the host's remaining events (the model's own list, log 5), the clock value the port carries and the
columns; a reserved opcode byte changes nothing and answers 0 (30_encoding.md R91). -/
def Obligations.StepRunsDecodedCommand : Prop :=
  ∀ (s : State) (w : CommandWord) (n : Nat) (c : Columns) (rest : List HostEvent),
    s.host = .command w n c :: rest →
    (∀ i, decode w = .ok i →
      step s = exec i { s with host := rest, now := n % 2 ^ s.params.clkW, cols := c }) ∧
    (∀ e, decode w = .error e →
      step s =
        .next { s with host := rest, now := n % 2 ^ s.params.clkW, cols := c, resp := 0 })

/-- With no command presented the block holds everything (60_exceptions.md R182). The list of the
host's events is the model's own (log 5), and that the response port holds while the block is idle is
the model's choice (log 4, DESIGN CHOICE): R182 speaks of the outputs, and the spec says nothing of
`resp` between commands. -/
def Obligations.IdleStepHoldsState : Prop :=
  ∀ s : State,
    (s.host = [] → step s = .next s) ∧
    ∀ rest, s.host = .idle :: rest → step s = .next { s with host := rest }

/-- Every step from every state answers a next state: no fault, no refusal, no waiting (20_memory.md
R74, 60_exceptions.md R170). -/
def Obligations.EveryStepCompletes : Prop :=
  (∀ s : State, ∃ u, step s = .next u) ∧ ∀ (i : Instr) (s : State), ∃ u, exec i s = .next u

/-- The reset state of 70_reset_and_hazards.md R190, field by field, for any parameters and whatever
`dac_code` is left at; every tick is a no-op in it and `TMR.CHECK` answers 0 for every timer. The first
four clauses are the model's choice (log 1, DESIGN CHOICE): R22 calls the parameters no state, and the
model keeps them in State, at reset with the defaults of 00_scope.md R5. -/
def Obligations.ResetStateValues : Prop :=
  (∃ n, State.reset = State.resetWith Config.defaultParams n) ∧
  Config.defaultParams.clkW = 32 ∧ Config.defaultParams.scanPeriodUs = 2000 ∧
  Config.defaultParams.nSamples = 16 ∧
  ∀ (p : Params) (n : Nat),
    let s := State.resetWith p n
    (∀ t, timerOf s t = { nextDeadline := 0, period := 1, enabled := false }) ∧
    s.kpEnabled = false ∧ s.rowCounter = 0 ∧ s.rowPattern = 0b0001 ∧
    s.capturedColumns = 0 ∧ s.rawCode = 0 ∧ s.decodedKey = 0x1F ∧
    (∀ i : Fin 10, s.hist.get i = 0x1F) ∧
    s.doubleZeroFlag = false ∧ s.keyPendingFlag = false ∧ s.debounceActive = false ∧
    (∀ l : Line, s.lineCfg.get (lineNumber l) =
      match l with
      | .row _ => { direction := .output, pull := .none }
      | .col _ => { direction := .input, pull := .down }
      | .dac _ => { direction := .output, pull := .none }) ∧
    (∀ r : Fin 4, lineRead s (.row r) = decide (r = 0)) ∧
    ∀ (now : Nat) (c : Columns) (mv : Int),
      let s' := { s with now := now, cols := c }
      exec .kpTick s' = .next { s' with resp := 0 } ∧
      exec (.dacTick mv) s' = .next { s' with resp := 0 } ∧
      ∀ t, exec (Instr.tmrCheck t) s' = .next { s' with resp := 0 }

/-- A hardware reset from any state gives the reset values of R190 again. Three clauses are the
model's choice: the parameters and what the host still issues are no part of the block's reset (log 1,
log 5), and the DAC lines carry the code, both left unspecified by R190 and R191, as 10_state.md R43
says of the register and its lines (log 3). -/
def Obligations.HardwareResetRestoresResetValues : Prop :=
  ∀ (s : State) (rest : List HostEvent), s.host = .reset :: rest →
    ∃ u, step s = .next u ∧ SameTimers State.reset u ∧ SameKeypad State.reset u ∧
      u.lineCfg = State.reset.lineCfg ∧ u.dacLines = u.dacCode ∧
      u.params = s.params ∧ u.host = rest

/-- The invariant holds at reset. Of its clauses, that the DAC lines carry `dac_code` rests on
10_state.md R43 and log 3 (R190 leaves both unspecified), and that the parameters are legal on
00_scope.md R5, 30_encoding.md R85 and the model's defaults for them (log 1, log 2); that the sampled
clock value is 0 is log 6. -/
def Obligations.ResetMeetsTheInvariant : Prop := State.reset.Inv

/-- Every step keeps the invariant: R39 (a) to (e), the bounds of R24 and R25, the lines of R43, R44,
R62, R65. The clauses on the parameters and the sampled clock value are about the model's own fields
(log 1, log 2, log 6), and that a reset leaves the DAC lines carrying `dac_code` is log 3. -/
def Obligations.EveryStepKeepsTheInvariant : Prop :=
  ∀ s u : State, s.Inv → step s = .next u → u.Inv

/-- No command writes its inputs or the parameters (10_state.md R22). -/
def Obligations.NoCommandWritesInputs : Prop :=
  ∀ (i : Instr) (s u : State), exec i s = .next u → SameInputs s u

/-! ### Timers -/

/-- `TMR.INIT t, p` (40_timer.md R104): the record it leaves, and everything else as it was. -/
def Obligations.TmrInitCreatesTimer : Prop :=
  ∀ (t : TimerId) (p : Nat) (s : State),
    let q := max 1 (min p (2 ^ s.params.clkW / 2 - 1))
    EncodedWith (timerUnit t ++ 0#4) (fun x => Instr.tmrInit t x.toNat) ∧
    ∃ u, exec (Instr.tmrInit t p) s = .next u ∧
      timerOf u t =
        { nextDeadline := (s.now + q) % 2 ^ s.params.clkW, period := q, enabled := true } ∧
      u.resp = 0 ∧ TimerFrame t s u

/-- `TMR.CHECK t` (R105, with the comparator of R103): the answer, and no state written. -/
def Obligations.TmrCheckAnswersComparator : Prop :=
  ∀ (t : TimerId) (s : State),
    EncodedAs (timerUnit t ++ 1#4) (Instr.tmrCheck t) ∧
    exec (Instr.tmrCheck t) s =
      .next { s with
        resp :=
          if (timerOf s t).enabled = true ∧
              ((s.now : Int) - ((timerOf s t).nextDeadline : Int)) % ((2 ^ s.params.clkW : Nat) : Int)
                < ((2 ^ s.params.clkW / 2 : Nat) : Int)
          then 1 else 0 }

/-- `TMR.ADVN t` (R106), enabled or not. -/
def Obligations.TmrAdvnAdvancesFromNow : Prop :=
  ∀ (t : TimerId) (s : State), EncodedAs (timerUnit t ++ 2#4) (Instr.tmrAdvn t) ∧
    ∃ u, exec (Instr.tmrAdvn t) s = .next u ∧
    timerOf u t =
      { nextDeadline := (s.now + (timerOf s t).period) % 2 ^ s.params.clkW
        period := (timerOf s t).period, enabled := (timerOf s t).enabled } ∧
    u.resp = 0 ∧ TimerFrame t s u

/-- `TMR.ADVP t` (R107): the next state does not depend on the clock. -/
def Obligations.TmrAdvpAdvancesByPeriod : Prop :=
  ∀ (t : TimerId) (s : State), EncodedAs (timerUnit t ++ 3#4) (Instr.tmrAdvp t) ∧
    ∃ u, exec (Instr.tmrAdvp t) s = .next u ∧
    timerOf u t =
      { nextDeadline := ((timerOf s t).nextDeadline + (timerOf s t).period) % 2 ^ s.params.clkW
        period := (timerOf s t).period, enabled := (timerOf s t).enabled } ∧
    u.resp = 0 ∧ TimerFrame t s u

/-- `TMR.SETP t, p` (R108): the period through the clamp, the deadline kept. -/
def Obligations.TmrSetpSetsPeriodOnly : Prop :=
  ∀ (t : TimerId) (p : Nat) (s : State),
    EncodedWith (timerUnit t ++ 4#4) (fun x => Instr.tmrSetp t x.toNat) ∧
    ∃ u, exec (Instr.tmrSetp t p) s = .next u ∧
    timerOf u t =
      { nextDeadline := (timerOf s t).nextDeadline
        period := max 1 (min p (2 ^ s.params.clkW / 2 - 1))
        enabled := (timerOf s t).enabled } ∧
    u.resp = 0 ∧ TimerFrame t s u

/-- `TMR.EN t` and `TMR.DIS t` (R109, R110): the enable bit and nothing else. -/
def Obligations.TmrEnAndDisWriteEnableOnly : Prop :=
  ∀ (t : TimerId) (s : State),
    EncodedAs (timerUnit t ++ 5#4) (Instr.tmrEn t) ∧
    EncodedAs (timerUnit t ++ 6#4) (Instr.tmrDis t) ∧
    (∃ u, exec (Instr.tmrEn t) s = .next u ∧
      timerOf u t =
        { nextDeadline := (timerOf s t).nextDeadline, period := (timerOf s t).period
          enabled := true } ∧
      u.resp = 0 ∧ TimerFrame t s u) ∧
    (∃ u, exec (Instr.tmrDis t) s = .next u ∧
      timerOf u t =
        { nextDeadline := (timerOf s t).nextDeadline, period := (timerOf s t).period
          enabled := false } ∧
      u.resp = 0 ∧ TimerFrame t s u)

/-- `TMR.SETF hz` (R111): 0 is ignored; otherwise the clamped quotient becomes the sample timer's
period, and nothing else changes. -/
def Obligations.TmrSetfRescalesSamplePeriod : Prop :=
  ∀ (hz : Nat) (s : State),
    EncodedWith 0x27 (fun x => .tmrSetf x.toNat) ∧
    exec (.tmrSetf hz) s =
      .next { s with
        smp :=
          { nextDeadline := s.smp.nextDeadline
            period :=
              if hz = 0 then s.smp.period
              else max 1 (min (1000000 / (s.params.nSamples * hz)) (2 ^ s.params.clkW / 2 - 1))
            enabled := s.smp.enabled }
        resp := 0 }

/-- Period legality (R102): with a legal clock width, the period that `TMR.INIT`, `TMR.SETP`,
`TMR.SETF`, `KP.INIT` leave is in 1..M/2−1; an operand in that range is kept, 0 becomes 1 and M/2 or
more becomes M/2−1. `KP.INIT` writes two periods: its operand to `DEB`, and `SCAN_PERIOD_US` to `SCAN`
(R128). -/
def Obligations.WrittenPeriodsAreLegal : Prop :=
  ∀ s : State, s.params.LegalClock →
    let top := 2 ^ s.params.clkW / 2 - 1
    (∀ (t : TimerId) (p : Nat) (i : Instr) (u : State),
      (i = Instr.tmrInit t p ∨ i = Instr.tmrSetp t p ∨ t = .deb ∧ i = .kpInit p) →
      exec i s = .next u →
        (p = 0 → (timerOf u t).period = 1) ∧
        (1 ≤ p ∧ p ≤ top → (timerOf u t).period = p) ∧
        (top < p → (timerOf u t).period = top)) ∧
    (∀ (d : Nat) (u : State), exec (.kpInit d) s = .next u →
      1 ≤ u.scan.period ∧ u.scan.period ≤ top ∧
      (1 ≤ s.params.scanPeriodUs ∧ s.params.scanPeriodUs ≤ top →
        u.scan.period = s.params.scanPeriodUs)) ∧
    ∀ (hz : Nat) (u : State), hz ≠ 0 → exec (.tmrSetf hz) s = .next u →
      1 ≤ u.smp.period ∧ u.smp.period ≤ top

/-- Expiry after creation (R113): after `TMR.INIT t, p` at clock value `n0`, and with no other
operation on `t`, `TMR.CHECK t` after `e` elapsed microseconds answers 0 for `e < p` and 1 for
`p ≤ e < p + M/2`. -/
def Obligations.CheckAfterCreation : Prop :=
  ∀ (t : TimerId) (p e : Nat) (s s1 u : State),
    s.params.LegalClock → 1 ≤ p → p ≤ 2 ^ s.params.clkW / 2 - 1 →
    exec (Instr.tmrInit t p) s = .next s1 →
    u.params = s.params → timerOf u t = timerOf s1 t →
    u.now = (s.now + e) % 2 ^ s.params.clkW →
    (e < p → exec (Instr.tmrCheck t) u = .next { u with resp := 0 }) ∧
    (p ≤ e → e < p + 2 ^ s.params.clkW / 2 →
      exec (Instr.tmrCheck t) u = .next { u with resp := 1 })

/-- The wrap horizon (R101 (a), 70_reset_and_hazards.md R196): an enabled timer whose deadline was
`p` microseconds ahead reads as not expired before it, as expired for M/2 microseconds, and as not
expired again for the rest of the modulus. -/
def Obligations.ExpiryWindowIsHalfTheModulus : Prop :=
  ∀ (t : TimerId) (n0 p e : Nat) (s : State),
    s.params.LegalClock → p ≤ 2 ^ s.params.clkW / 2 - 1 → (timerOf s t).enabled = true →
    (timerOf s t).nextDeadline = (n0 + p) % 2 ^ s.params.clkW →
    s.now = (n0 + e) % 2 ^ s.params.clkW → e < p + 2 ^ s.params.clkW →
    exec (Instr.tmrCheck t) s =
      .next { s with resp := if p ≤ e ∧ e < p + 2 ^ s.params.clkW / 2 then 1 else 0 }

/-- No drift (R112): `k` operations `TMR.ADVP t`, at whatever clock values and with whatever on the
columns, leave the deadline at `(d0 + k · period) mod M`. The host that issues them is the model's own
list of events (log 5). -/
def Obligations.AdvanceByPeriodNeverDrifts : Prop :=
  ∀ (t : TimerId) (at_ : List (Nat × Columns)) (s : State),
    (timerOf s t).nextDeadline < 2 ^ s.params.clkW →
    s.host = at_.map (fun a => HostEvent.command (encode (Instr.tmrAdvp t)) a.1 a.2) →
    ∃ u : State, Host.Core.run Sys2Proof.core at_.length s = .next u ∧
      timerOf u t =
        { timerOf s t with
          nextDeadline :=
            ((timerOf s t).nextDeadline + at_.length * (timerOf s t).period)
              % 2 ^ s.params.clkW }

/-- A new period does not move the current deadline, and the next advance uses it (R199, R106,
R107). -/
def Obligations.NewPeriodTakesEffectAtNextAdvance : Prop :=
  ∀ (t : TimerId) (p : Nat) (s : State),
    let q := max 1 (min p (2 ^ s.params.clkW / 2 - 1))
    let d := (timerOf s t).nextDeadline
    (∃ u, execAll [Instr.tmrSetp t p] s = .next u ∧ (timerOf u t).nextDeadline = d) ∧
    (∃ u, execAll [Instr.tmrSetp t p, Instr.tmrAdvp t] s = .next u ∧
      (timerOf u t).nextDeadline = (d + q) % 2 ^ s.params.clkW) ∧
    (∃ u, execAll [Instr.tmrSetp t p, Instr.tmrAdvn t] s = .next u ∧
      (timerOf u t).nextDeadline = (s.now + q) % 2 ^ s.params.clkW)

/-- Which commands write which timer field (10_state.md R24 to R26). -/
def Obligations.TimerFieldsHaveTheirWriters : Prop :=
  ∀ (i : Instr) (t : TimerId) (s u : State), exec i s = .next u →
    ((timerOf u t).period ≠ (timerOf s t).period →
      (∃ p, i = Instr.tmrInit t p) ∨ (∃ p, i = Instr.tmrSetp t p) ∨
      (t = .smp ∧ ∃ hz, i = .tmrSetf hz) ∨ (t ≠ .smp ∧ ∃ d, i = .kpInit d)) ∧
    ((timerOf u t).nextDeadline ≠ (timerOf s t).nextDeadline →
      (∃ p, i = Instr.tmrInit t p) ∨ i = Instr.tmrAdvn t ∨ i = Instr.tmrAdvp t ∨
      (t = .deb ∧ (i = .kpCapture ∨ i = .kpTick)) ∨ (t = .scan ∧ i = .kpTick) ∨
      (t = .smp ∧ ∃ mv, i = .dacTick mv) ∨ (t ≠ .smp ∧ ∃ d, i = .kpInit d)) ∧
    ((timerOf u t).enabled ≠ (timerOf s t).enabled →
      (∃ p, i = Instr.tmrInit t p) ∨ i = Instr.tmrEn t ∨ i = Instr.tmrDis t ∨
      (t ≠ .smp ∧ ∃ d, i = .kpInit d))

/-- The catch-up burst under the fixed-rate policy (70_reset_and_hazards.md R195), seen at the DAC
stage: with the sample timer late by `late` microseconds, the next `late / period + 1` ticks at that
clock value each take a sample and advance by one period, and the tick after them does nothing. -/
def Obligations.LateSampleTimerCatchesUp : Prop :=
  ∀ (s : State) (mv : Int) (late : Nat),
    s.params.LegalClock → Timer.Legal s.params s.smp → s.smp.enabled = true →
    s.now = (s.smp.nextDeadline + late) % 2 ^ s.params.clkW → late < 2 ^ s.params.clkW / 2 →
    (∀ j, 1 ≤ j → j ≤ late / s.smp.period + 1 →
      ∃ u, execAll (List.replicate j (.dacTick mv)) s = .next u ∧ u.resp = 1 ∧
        u.smp.nextDeadline = (s.smp.nextDeadline + j * s.smp.period) % 2 ^ s.params.clkW) ∧
    ∃ u, execAll (List.replicate (late / s.smp.period + 1) (.dacTick mv)) s = .next u ∧
      exec (.dacTick mv) u = .next { u with resp := 0 }

/-! ### Keypad -/

/-- `KP.INIT deb` (41_keypad.md R128): everything it writes, and what it leaves (the sample timer,
the DAC stage, the DAC lines' configuration, the inputs). -/
def Obligations.KpInitConstructsKeypad : Prop :=
  ∀ (deb : Nat) (s : State),
    let top := 2 ^ s.params.clkW / 2 - 1
    let ps := max 1 (min s.params.scanPeriodUs top)
    let pd := max 1 (min deb top)
    EncodedWith 0x40 (fun x => .kpInit x.toNat) ∧
    ∃ u, exec (.kpInit deb) s = .next u ∧
      u.kpEnabled = true ∧ u.rowCounter = 0 ∧ u.rowPattern = 0b0001 ∧ u.rowLines = 0b0001 ∧
      u.capturedColumns = 0 ∧ u.rawCode = 0 ∧ u.decodedKey = 0x1F ∧
      (∀ i : Fin 10, u.hist.get i = 0x1F) ∧
      u.doubleZeroFlag = false ∧ u.keyPendingFlag = false ∧ u.debounceActive = false ∧
      u.scan = { nextDeadline := (s.now + ps) % 2 ^ s.params.clkW, period := ps
                 enabled := true } ∧
      u.deb = { nextDeadline := (s.now + pd) % 2 ^ s.params.clkW, period := pd
                enabled := true } ∧
      (∀ r, u.lineCfg.get (lineNumber (.row r)) = { direction := .output, pull := .none }) ∧
      (∀ c, u.lineCfg.get (lineNumber (.col c)) = { direction := .input, pull := .down }) ∧
      (∀ i, u.lineCfg.get (lineNumber (.dac i)) = s.lineCfg.get (lineNumber (.dac i))) ∧
      u.resp = 0 ∧ u.smp = s.smp ∧ SameDac s u ∧ SameInputs s u

/-- Enable gating (R120): with the keypad disabled the nine gated commands change no state at all
and answer 0. -/
def Obligations.DisabledKeypadChangesNothing : Prop :=
  ∀ (i : Instr) (s : State), i ∈ gatedCommands → s.kpEnabled = false →
    exec i s = .next { s with resp := 0 }

/-- `KP.ROWADV` (R130, R121): the next row, driven one-hot on the ROW lines; nothing on a disabled
keypad. -/
def Obligations.KpRowadvDrivesNextRow : Prop :=
  ∀ s : State, EncodedAs 0x42 .kpRowadv ∧
    (s.kpEnabled = false → exec .kpRowadv s = .next { s with resp := 0 }) ∧
    (s.kpEnabled = true →
      ∃ u, exec .kpRowadv s = .next u ∧
        u.rowCounter.toNat = (s.rowCounter.toNat + 1) % 4 ∧
        (∀ r : Fin 4, u.rowPattern.getLsbD r.val = decide (r.val = u.rowCounter.toNat)) ∧
        (∀ r : Fin 4, lineRead u (.row r) = u.rowPattern.getLsbD r.val) ∧
        u = { s with rowCounter := u.rowCounter, rowPattern := u.rowPattern
                     rowLines := u.rowLines, resp := 0 })

/-- Four row advances visit the rows 0x1 → 0x2 → 0x4 → 0x8 → 0x1 and come back (R121, R31). -/
def Obligations.FourRowAdvancesComeBack : Prop :=
  ∀ s : State, s.kpEnabled = true →
    s.rowPattern = (1 : BitVec 4) <<< s.rowCounter.toNat → s.rowLines = s.rowPattern →
    execAll (List.replicate 4 .kpRowadv) s = .next { s with resp := 0 } ∧
    ∀ u, exec .kpRowadv s = .next u →
      (s.rowPattern, u.rowPattern) ∈
        [((0x1 : BitVec 4), (0x2 : BitVec 4)), (0x2, 0x4), (0x4, 0x8), (0x8, 0x1)]

/-- `KP.SAMPLE` (R131, R122): bit `c` of the captured columns is the level of `COLc`, and nothing
else changes; with the columns given as four levels they are what is captured (20_memory.md R63).
Nothing on a disabled keypad. -/
def Obligations.KpSampleTakesColumnLevels : Prop :=
  ∀ s : State, EncodedAs 0x43 .kpSample ∧
    (s.kpEnabled = false → exec .kpSample s = .next { s with resp := 0 }) ∧
    (s.kpEnabled = true →
      ∃ u, exec .kpSample s = .next u ∧
        (∀ c : Fin 4, u.capturedColumns.getLsbD c.val = lineRead s (.col c)) ∧
        (∀ v, s.cols = .levels v → u.capturedColumns = v) ∧
        u = { s with capturedColumns := u.capturedColumns, resp := 0 })

/-- The ideal matrix (20_memory.md R64): what `KP.SAMPLE` reads in column `c` is whether the key at
the driven row and column `c` is closed. The matrix is an optional premise of the spec (log 7). -/
def Obligations.MatrixSampleReadsDrivenRow : Prop :=
  ∀ (s : State) (m : Vector (BitVec 4) 4), s.kpEnabled = true → s.cols = .matrix m →
    s.rowPattern = (1 : BitVec 4) <<< s.rowCounter.toNat → s.rowLines = s.rowPattern →
    exec .kpSample s =
      .next { s with capturedColumns := m.get s.rowCounter.toFin, resp := 0 }

/-- `KP.DECODE` (R132, R123, R124): `raw_code` always, `decoded_key` exactly when both nibbles are
one-hot, by the block's table whatever it is; nothing on a disabled keypad. -/
def Obligations.KpDecodeFormsRawCodeAndKey : Prop :=
  ∀ s : State, EncodedAs 0x44 .kpDecode ∧
    (s.kpEnabled = false → exec .kpDecode s = .next { s with resp := 0 }) ∧
    (s.kpEnabled = true →
      ∃ u, exec .kpDecode s = .next u ∧
        u.rawCode.toNat = 16 * s.capturedColumns.toNat + s.rowPattern.toNat ∧
        (∀ r c : Fin 4, s.rowPattern = 1#4 <<< r.val → s.capturedColumns = 1#4 <<< c.val →
          u.decodedKey = ((s.params.keymap.get r).get c).setWidth 5) ∧
        ((¬ ∃ r c : Fin 4, s.rowPattern = 1#4 <<< r.val ∧ s.capturedColumns = 1#4 <<< c.val) →
          u.decodedKey = s.decodedKey) ∧
        u = { s with rawCode := u.rawCode, decodedKey := u.decodedKey, resp := 0 })

/-- Some column of row 3 is key 5 (30_encoding.md R85 point 4), seen at the keypad: with legal
parameters there is a column at which `KP.DECODE` on row 3 leaves the key 5. Which column it is, the
model leaves free (log 2). -/
def Obligations.RowThreeHasKeyFive : Prop :=
  ∀ p : Params, p.Legal → ∃ c5 : Fin 4, ∀ s : State, s.params = p → s.kpEnabled = true →
    s.rowPattern = 0x8 → s.capturedColumns = 1#4 <<< c5.val →
    ∃ u, exec .kpDecode s = .next u ∧ u.decodedKey = 5

/-- `KP.CAPTURE` (R133, R125): outside a debounce window with one row and one column, the decode, the
push, the flag, the debounce timer restarted from now and the lock-out; during a window, or with no
or several columns, the decode alone; nothing on a disabled keypad. -/
def Obligations.KpCaptureDecodesThenPushes : Prop :=
  ∀ s : State, EncodedAs 0x45 .kpCapture ∧
    (s.kpEnabled = false → exec .kpCapture s = .next { s with resp := 0 }) ∧
    (∀ r c : Fin 4, s.kpEnabled = true → s.debounceActive = false →
      s.rowPattern = 1#4 <<< r.val → s.capturedColumns = 1#4 <<< c.val →
      let k : KeyCode := ((s.params.keymap.get r).get c).setWidth 5
      ∃ u, exec .kpCapture s = .next u ∧
        u.rawCode.toNat = 16 * s.capturedColumns.toNat + s.rowPattern.toNat ∧
        u.hist.get 0 = k ∧ (∀ i : Fin 9, u.hist.get i.succ = s.hist.get i.castSucc) ∧
        u = { s with
              rawCode := u.rawCode, decodedKey := k, hist := u.hist
              keyPendingFlag := true, debounceActive := true
              deb := { nextDeadline := (s.now + s.deb.period) % 2 ^ s.params.clkW
                       period := s.deb.period, enabled := s.deb.enabled }
              resp := 0 }) ∧
    (s.kpEnabled = true →
      (s.debounceActive = true ∨
        ¬ ∃ r c : Fin 4, s.rowPattern = 1#4 <<< r.val ∧ s.capturedColumns = 1#4 <<< c.val) →
      ∃ u, exec .kpCapture s = .next u ∧ exec .kpDecode s = .next u ∧
        u = { s with rawCode := u.rawCode, decodedKey := u.decodedKey, resp := 0 })

/-- `KP.RELEASE` (R134, R126): it acts exactly when the lock-out is set and the debounce timer has
expired; nothing on a disabled keypad. -/
def Obligations.KpReleaseOpensAfterExpiry : Prop :=
  ∀ s : State, EncodedAs 0x46 .kpRelease ∧
    let expired := s.deb.enabled = true ∧
      ((s.now : Int) - (s.deb.nextDeadline : Int)) % ((2 ^ s.params.clkW : Nat) : Int)
        < ((2 ^ s.params.clkW / 2 : Nat) : Int)
    (s.kpEnabled = true ∧ s.debounceActive = true ∧ expired → exec .kpRelease s =
      .next { s with debounceActive := false, rawCode := 0, decodedKey := 0x1F, resp := 0 }) ∧
    (¬ (s.kpEnabled = true ∧ s.debounceActive = true ∧ expired) →
      exec .kpRelease s = .next { s with resp := 0 })

/-- `KP.TICK` (R129): when the scan timer has expired it is `TMR.ADVP SCAN` and the four phase commands
in order, at one sample of the clock; otherwise it is the release alone; nothing on a disabled
keypad. Its frame: the timers' periods and enable bits, the sample timer, the enable and double-zero
flags, the DAC stage, the line configuration and the inputs stay. -/
def Obligations.KpTickIsItsPhasesInOrder : Prop :=
  ∀ s : State, EncodedAs 0x41 .kpTick ∧
    (s.kpEnabled = false → exec .kpTick s = .next { s with resp := 0 }) ∧
    (s.kpEnabled = true →
      ∃ u, exec .kpTick s = .next u ∧
        execAll
          (if s.scan.enabled = true ∧
              ((s.now : Int) - (s.scan.nextDeadline : Int)) % ((2 ^ s.params.clkW : Nat) : Int)
                < ((2 ^ s.params.clkW / 2 : Nat) : Int)
            then [.tmrAdvpScan, .kpRowadv, .kpSample, .kpDecode, .kpCapture, .kpRelease]
            else [.kpRelease]) s = .next u ∧
        u = { s with
              scan := { s.scan with nextDeadline := u.scan.nextDeadline }
              deb := { s.deb with nextDeadline := u.deb.nextDeadline }
              rowCounter := u.rowCounter, rowPattern := u.rowPattern, rowLines := u.rowLines
              capturedColumns := u.capturedColumns, rawCode := u.rawCode
              decodedKey := u.decodedKey, hist := u.hist, keyPendingFlag := u.keyPendingFlag
              debounceActive := u.debounceActive, resp := 0 })

/-- Consequences of the order inside a tick (R129, R174): a tick that finds the lock-out set pushes
nothing, and a tick that captures leaves the lock-out set, with the deadline one period ahead. -/
def Obligations.TickNeverCapturesAndReleases : Prop :=
  ∀ s u : State, s.Inv → exec .kpTick s = .next u →
    (s.debounceActive = true → u.hist = s.hist) ∧
    (s.debounceActive = false →
      (u.hist = s.hist ∧ u.debounceActive = false ∧ u.deb = s.deb) ∨
      ((∀ i : Fin 9, u.hist.get i.succ = s.hist.get i.castSucc) ∧ u.debounceActive = true ∧
        u.keyPendingFlag = true ∧ (u.hist.get 0).toNat ≤ 15 ∧
        u.deb.nextDeadline = (s.now + s.deb.period) % 2 ^ s.params.clkW))

/-- The pseudo-operation `KP.SCAN` (30_encoding.md R93), at held inputs: what `KP.TICK` does when the
scan timer has expired, without `TMR.ADVP SCAN`. -/
def Obligations.KpScanIsTickWithoutTheTimer : Prop :=
  ∀ s : State, s.kpEnabled = true → check s .scan = true →
    ∃ u, execAll (pseudoFirst .kpScan) s = .next u ∧ u.scan = s.scan ∧
      exec .kpTick s =
        .next { u with scan := { s.scan with
          nextDeadline := (s.scan.nextDeadline + s.scan.period) % 2 ^ s.params.clkW } }

/-- The reads `KP.GETKEY`, `KP.ISDZ`, `KP.HIST i` (R135, R138, R141): the answer, enabled or not, and
no state written; an index of 10 or more reads "no key". -/
def Obligations.KeypadReadsAnswerAndWriteNothing : Prop :=
  ∀ s : State,
    EncodedAs 0x47 .kpGetkey ∧ EncodedAs 0x4A .kpIsdz ∧
    EncodedWith 0x4D (fun x => .kpHist x.toNat) ∧
    exec .kpGetkey s = .next { s with resp := (s.hist.get 0).setWidth 32 } ∧
    exec .kpIsdz s = .next { s with resp := if s.doubleZeroFlag then 1 else 0 } ∧
    (∀ i : Fin 10, exec (.kpHist i.val) s = .next { s with resp := (s.hist.get i).setWidth 32 }) ∧
    ∀ i : Nat, 10 ≤ i → exec (.kpHist i) s = .next { s with resp := 0x1F }

/-- `KP.STAT` (R140): the layout of R89, enabled or not, and no state written. -/
def Obligations.KpStatShowsTheStatusWord : Prop :=
  ∀ s : State, EncodedAs 0x4C .kpStat ∧
    ∃ u, exec .kpStat s = .next u ∧ u = { s with resp := u.resp } ∧
    u.resp.extractLsb' 0 5 = s.decodedKey ∧ u.resp.extractLsb' 5 8 = s.rawCode ∧
    u.resp.extractLsb' 13 4 = s.capturedColumns ∧ u.resp.extractLsb' 17 4 = s.rowPattern ∧
    u.resp.extractLsb' 21 2 = s.rowCounter ∧ u.resp.getLsbD 23 = s.debounceActive ∧
    u.resp.getLsbD 24 = s.keyPendingFlag ∧ u.resp.getLsbD 25 = s.doubleZeroFlag ∧
    u.resp.getLsbD 26 = s.kpEnabled ∧ u.resp.extractLsb' 27 5 = 0

/-- The commands that write one keypad flag (R136, R137, R139, R142, R143); the first three do nothing
on a disabled keypad. -/
def Obligations.FlagCommandsWriteTheirFlag : Prop :=
  ∀ s : State,
    EncodedAs 0x48 .kpSetdz ∧ EncodedAs 0x49 .kpClrdz ∧ EncodedAs 0x4B .kpAck ∧
    EncodedAs 0x4E .kpEn ∧ EncodedAs 0x4F .kpDis ∧
    (s.kpEnabled = true →
      exec .kpSetdz s = .next { s with doubleZeroFlag := true, resp := 0 } ∧
      exec .kpClrdz s = .next { s with doubleZeroFlag := false, resp := 0 } ∧
      exec .kpAck s = .next { s with keyPendingFlag := false, resp := 0 }) ∧
    (s.kpEnabled = false →
      exec .kpSetdz s = .next { s with resp := 0 } ∧
      exec .kpClrdz s = .next { s with resp := 0 } ∧
      exec .kpAck s = .next { s with resp := 0 }) ∧
    exec .kpEn s = .next { s with kpEnabled := true, resp := 0 } ∧
    exec .kpDis s = .next { s with kpEnabled := false, resp := 0 }

/-- The double-zero flag is storage only (R149, 10_state.md R36): which commands can change it, and
to what. -/
def Obligations.DoubleZeroFlagIsHostOwned : Prop :=
  ∀ (i : Instr) (s u : State), exec i s = .next u → u.doubleZeroFlag ≠ s.doubleZeroFlag →
    (u.doubleZeroFlag = true ∧ i = .kpSetdz) ∨
    (u.doubleZeroFlag = false ∧ (i = .kpClrdz ∨ ∃ d, i = .kpInit d))

/-- The pending flag (10_state.md R37) is set only by a capture, which pushes a key, and cleared only
by `KP.ACK` and `KP.INIT`. -/
def Obligations.PendingFlagHasItsWriters : Prop :=
  ∀ (i : Instr) (s u : State), exec i s = .next u → u.keyPendingFlag ≠ s.keyPendingFlag →
    (u.keyPendingFlag = true ∧ (i = .kpTick ∨ i = .kpCapture) ∧ s.debounceActive = false ∧
      ∀ j : Fin 9, u.hist.get j.succ = s.hist.get j.castSucc) ∨
    (u.keyPendingFlag = false ∧ (i = .kpAck ∨ ∃ d, i = .kpInit d))

/-- Debounce suppression in one command (R148, R125, R126): while the lock-out is set no command but
`KP.INIT` changes the history, and the lock-out is cleared only by `KP.INIT`, or by `KP.RELEASE` or
`KP.TICK` once the debounce timer has expired. -/
def Obligations.LockOutSuppressesPushes : Prop :=
  ∀ (i : Instr) (s u : State), s.debounceActive = true → (∀ d, i ≠ .kpInit d) →
    exec i s = .next u →
    u.hist = s.hist ∧
    (u.debounceActive = false → (i = .kpRelease ∨ i = .kpTick) ∧ check s .deb = true)

/-- Debounce suppression over a run (R148): through any commands at clock values that have not
reached the debounce deadline, none of which moves it or is `KP.INIT`, the history and the lock-out
stay. A hardware reset among the events is excluded. The list of the host's events is the model's own
(log 5). -/
def Obligations.WindowHoldsOverARun : Prop :=
  ∀ s : State, s.debounceActive = true → (∀ e ∈ s.host, WindowEvent s e) →
    ∃ u : State, Host.Core.run Sys2Proof.core s.host.length s = .next u ∧
      u.hist = s.hist ∧ u.debounceActive = true ∧
      u.deb.nextDeadline = s.deb.nextDeadline ∧ u.host = []

/-- Disabling the debounce timer inside a window (R145): the lock-out stays through every command
but `KP.INIT`, `TMR.INIT DEB` and `TMR.EN DEB`; and once `DEB` is enabled again with its deadline
passed, the next release opens it at once. -/
def Obligations.DisabledDebounceTimerLocks : Prop :=
  ∀ s : State, s.debounceActive = true → s.deb.enabled = false →
    (∀ (i : Instr) (u : State), (∀ d, i ≠ .kpInit d) → (∀ p, i ≠ .tmrInitDeb p) → i ≠ .tmrEnDeb →
      exec i s = .next u →
      u.debounceActive = true ∧ u.hist = s.hist ∧ u.deb.enabled = false) ∧
    (s.kpEnabled = true → reached s.params s.now s.deb.nextDeadline = true →
      ∃ u, execAll [.tmrEnDeb, .kpRelease] s = .next u ∧ u.debounceActive = false ∧
        u.rawCode = 0 ∧ u.decodedKey = 0x1F)

/-- The history's writers (10_state.md R35, 20_memory.md R67): a change is `KP.INIT` emptying it, or a
capture by `KP.CAPTURE` or `KP.TICK` pushing one key onto the front. -/
def Obligations.HistoryIsPushedOrEmptied : Prop :=
  ∀ (i : Instr) (s u : State), exec i s = .next u → u.hist ≠ s.hist →
    ((∃ d, i = .kpInit d) ∧ ∀ j : Fin 10, u.hist.get j = 0x1F) ∨
    ((i = .kpTick ∨ i = .kpCapture) ∧ (u.hist.get 0).toNat ≤ 15 ∧
      ∀ j : Fin 9, u.hist.get j.succ = s.hist.get j.castSucc)

/-- The history (R147) over a run: from a sound state with an empty history (what `KP.INIT` leaves),
through any `k` steps on whatever commands, clock values and columns the host issues, but for a reset
and another `KP.INIT`, entry `i` is the `i`-th newest of the keys captured in the run, and "no key"
where there are not so many. The list of the host's events is the model's own (log 5). -/
def Obligations.HistoryKeepsTheLastTen : Prop :=
  ∀ (k : Nat) (s : State), s.Inv → (∀ i : Fin 10, s.hist.get i = 0x1F) →
    (∀ e ∈ s.host, KeepsHistory e) →
    ∃ u : State, Host.Core.run Sys2Proof.core k s = .next u ∧
      ∀ i : Fin 10, u.hist.get i = (capturedKeys k s).reverse.getD i.val keyNone

/-- A law of the push (20_memory.md R67): pushing the keys `ks`, oldest first, onto the empty history
leaves in entry `i` the `i`-th newest of them, and "no key" where there are not so many. No command is
executed. -/
def Obligations.PushedKeysAreNewestFirst : Prop :=
  ∀ (ks : List KeyCode) (i : Fin 10),
    (ks.foldl (fun h k => histPush k h) (Vector.replicate 10 keyNone)).get i =
      ks.reverse.getD i.val keyNone

/-! ### DAC stage -/

/-- `DAC.SET mv` (42_dac.md R162, R161): the code is the floor of the saturated value's quotient, the
lines carry it, nothing else changes. -/
def Obligations.DacSetHoldsQuantisedValue : Prop :=
  ∀ (mv : Int) (s : State),
    let v : Int := max (-5000) (min mv 4400)
    EncodedWith 0x80 (fun x => .dacSet x.toInt) ∧
    ∃ u, exec (.dacSet mv) s = .next u ∧
      9400 * (u.dacCode.toNat : Int) ≤ (v + 5000) * 255 ∧
      (v + 5000) * 255 < 9400 * ((u.dacCode.toNat : Int) + 1) ∧
      (∀ i : Fin 8, lineRead u (.dac i) = u.dacCode.getLsbD i.val) ∧
      u = { s with dacCode := u.dacCode, dacLines := u.dacLines, resp := 0 }

/-- `DAC.TICK mv` (R163): a sample exactly when the sample timer has expired, as `TMR.ADVP SMP` and
`DAC.SET mv` with response 1; otherwise nothing. -/
def Obligations.DacTickSamplesOnExpiry : Prop :=
  ∀ (mv : Int) (s : State),
    let expired := s.smp.enabled = true ∧
      ((s.now : Int) - (s.smp.nextDeadline : Int)) % ((2 ^ s.params.clkW : Nat) : Int)
        < ((2 ^ s.params.clkW / 2 : Nat) : Int)
    EncodedWith 0x81 (fun x => .dacTick x.toInt) ∧
    (¬ expired → exec (.dacTick mv) s = .next { s with resp := 0 }) ∧
    (expired →
      ∃ u v, exec (.dacTick mv) s = .next u ∧ exec (.dacSet mv) s = .next v ∧
        u = { s with
              smp := { nextDeadline :=
                         (s.smp.nextDeadline + s.smp.period) % 2 ^ s.params.clkW
                       period := s.smp.period, enabled := s.smp.enabled }
              dacCode := v.dacCode, dacLines := v.dacLines, resp := 1 })

/-- The quantiser never steps back: a larger value never gives a smaller code (R161). -/
def Obligations.QuantiserIsMonotone : Prop :=
  ∀ (a b : Int) (s u v : State), a ≤ b →
    exec (.dacSet a) s = .next u → exec (.dacSet b) s = .next v →
    u.dacCode.toNat ≤ v.dacCode.toNat

/-- Hold (R164): no command but `DAC.SET`, and `DAC.TICK` with the sample timer expired, changes the
code or the DAC lines. -/
def Obligations.DacLinesHoldBetweenWrites : Prop :=
  ∀ (i : Instr) (s u : State), exec i s = .next u →
    (∀ mv, i ≠ .dacSet mv) → ((∃ mv, i = .dacTick mv) → check s .smp = false) →
    u.dacCode = s.dacCode ∧ ∀ l, lineRead u (.dac l) = lineRead s (.dac l)

/-! ### Whole block -/

/-- Locality of writes (60_exceptions.md R172): no keypad command writes the sample timer or the DAC
stage; no DAC command writes the keypad, `SCAN` or `DEB`. -/
def Obligations.UnitsWriteOnlyTheirOwn : Prop :=
  ∀ (i : Instr) (s u : State), exec i s = .next u →
    (unitOf i = 4 → u.smp = s.smp ∧ SameDac s u) ∧
    (unitOf i = 8 → SameKeypad s u ∧ u.scan = s.scan ∧ u.deb = s.deb ∧ u.lineCfg = s.lineCfg)

/-- Locality of reads (R172): what a keypad command does depends on neither the sample timer nor the
DAC stage, and what a DAC command does not on the keypad, `SCAN` or `DEB`. -/
def Obligations.UnitsReadOnlyTheirOwn : Prop :=
  ∀ (i : Instr) (s : State),
    (unitOf i = 4 → ∀ x code lines,
      exec i (withSampleUnit x code lines s) = mapNext (withSampleUnit x code lines) (exec i s)) ∧
    (unitOf i = 8 → ∀ k, exec i (withKeypadUnit k s) = mapNext (withKeypadUnit k) (exec i s))

/-- Idempotence (20_memory.md R66): a command that does not accumulate, issued twice with the same
inputs, gives the same state and the same response as once; among them a `KP.CAPTURE` that does not
push. -/
def Obligations.RepeatedCommandsAreIdempotent : Prop :=
  ∀ (i : Instr) (s u : State), ¬ Accumulates s i → exec i s = .next u →
    exec i u = .next u
end

