-- ==== Sys2Proof/Laws/Encoding.lean ====
section
/-! SUPPORT. The two fields of a command word read back from an encoded one (30_encoding.md R80). -/

namespace Sys2Proof

/-- The opcode byte of a word put together from its fields. -/
@[simp] theorem opcodeOf_append (o : BitVec 8) (x : BitVec 32) : opcodeOf (o ++ x) = o := by
  unfold opcodeOf
  apply BitVec.eq_of_getLsbD_eq
  intro j hj
  rw [BitVec.getLsbD_extractLsb']
  exact (congrArg _ (BitVec.getLsbD_append (x := o) (y := x))).trans (by simp [hj])

/-- The operand field of a word put together from its fields. -/
@[simp] theorem operandOf_append (o : BitVec 8) (x : BitVec 32) : operandOf (o ++ x) = x := by
  unfold operandOf
  apply BitVec.eq_of_getLsbD_eq
  intro j hj
  rw [BitVec.getLsbD_extractLsb']
  exact (congrArg _ (BitVec.getLsbD_append (x := o) (y := x))).trans (by simp [hj])

@[simp] theorem opcodeOf_encode (i : Instr) : opcodeOf (encode i) = opcodeByte i :=
  opcodeOf_append _ _

@[simp] theorem operandOf_encode (i : Instr) : operandOf (encode i) = operandField i :=
  operandOf_append _ _

end Sys2Proof
end

