-- ==== Sys2Proof/Laws/State.lean ====
section
/-! SUPPORT. One lemma per field per update of State, so that no later proof unfolds a record
update: the timer records, the sampled inputs, the response. -/

namespace Sys2Proof.Machine

@[simp] theorem setTimer_kpEnabled (t : TimerId) (x : Timer) (s : State) :
    (setTimer t x s).kpEnabled = s.kpEnabled := by cases t <;> rfl

@[simp] theorem setTimer_rowCounter (t : TimerId) (x : Timer) (s : State) :
    (setTimer t x s).rowCounter = s.rowCounter := by cases t <;> rfl

@[simp] theorem setTimer_rowPattern (t : TimerId) (x : Timer) (s : State) :
    (setTimer t x s).rowPattern = s.rowPattern := by cases t <;> rfl

@[simp] theorem setTimer_capturedColumns (t : TimerId) (x : Timer) (s : State) :
    (setTimer t x s).capturedColumns = s.capturedColumns := by cases t <;> rfl

@[simp] theorem setTimer_rawCode (t : TimerId) (x : Timer) (s : State) :
    (setTimer t x s).rawCode = s.rawCode := by cases t <;> rfl

@[simp] theorem setTimer_decodedKey (t : TimerId) (x : Timer) (s : State) :
    (setTimer t x s).decodedKey = s.decodedKey := by cases t <;> rfl

@[simp] theorem setTimer_hist (t : TimerId) (x : Timer) (s : State) :
    (setTimer t x s).hist = s.hist := by cases t <;> rfl

@[simp] theorem setTimer_doubleZeroFlag (t : TimerId) (x : Timer) (s : State) :
    (setTimer t x s).doubleZeroFlag = s.doubleZeroFlag := by cases t <;> rfl

@[simp] theorem setTimer_keyPendingFlag (t : TimerId) (x : Timer) (s : State) :
    (setTimer t x s).keyPendingFlag = s.keyPendingFlag := by cases t <;> rfl

@[simp] theorem setTimer_debounceActive (t : TimerId) (x : Timer) (s : State) :
    (setTimer t x s).debounceActive = s.debounceActive := by cases t <;> rfl

@[simp] theorem setTimer_dacCode (t : TimerId) (x : Timer) (s : State) :
    (setTimer t x s).dacCode = s.dacCode := by cases t <;> rfl

@[simp] theorem setTimer_rowLines (t : TimerId) (x : Timer) (s : State) :
    (setTimer t x s).rowLines = s.rowLines := by cases t <;> rfl

@[simp] theorem setTimer_dacLines (t : TimerId) (x : Timer) (s : State) :
    (setTimer t x s).dacLines = s.dacLines := by cases t <;> rfl

@[simp] theorem setTimer_lineCfg (t : TimerId) (x : Timer) (s : State) :
    (setTimer t x s).lineCfg = s.lineCfg := by cases t <;> rfl

@[simp] theorem setTimer_resp (t : TimerId) (x : Timer) (s : State) :
    (setTimer t x s).resp = s.resp := by cases t <;> rfl

@[simp] theorem setTimer_params (t : TimerId) (x : Timer) (s : State) :
    (setTimer t x s).params = s.params := by cases t <;> rfl

@[simp] theorem setTimer_now (t : TimerId) (x : Timer) (s : State) :
    (setTimer t x s).now = s.now := by cases t <;> rfl

@[simp] theorem setTimer_cols (t : TimerId) (x : Timer) (s : State) :
    (setTimer t x s).cols = s.cols := by cases t <;> rfl

@[simp] theorem setTimer_host (t : TimerId) (x : Timer) (s : State) :
    (setTimer t x s).host = s.host := by cases t <;> rfl

@[simp] theorem setTimer_draws (t : TimerId) (x : Timer) (s : State) :
    (setTimer t x s).draws = s.draws := by cases t <;> rfl

@[simp] theorem setTimer_scan_scan (x : Timer) (s : State) :
    (setTimer .scan x s).scan = x := rfl

@[simp] theorem setTimer_scan_deb (x : Timer) (s : State) :
    (setTimer .scan x s).deb = s.deb := rfl

@[simp] theorem setTimer_scan_smp (x : Timer) (s : State) :
    (setTimer .scan x s).smp = s.smp := rfl

@[simp] theorem setTimer_deb_scan (x : Timer) (s : State) :
    (setTimer .deb x s).scan = s.scan := rfl

@[simp] theorem setTimer_deb_deb (x : Timer) (s : State) :
    (setTimer .deb x s).deb = x := rfl

@[simp] theorem setTimer_deb_smp (x : Timer) (s : State) :
    (setTimer .deb x s).smp = s.smp := rfl

@[simp] theorem setTimer_smp_scan (x : Timer) (s : State) :
    (setTimer .smp x s).scan = s.scan := rfl

@[simp] theorem setTimer_smp_deb (x : Timer) (s : State) :
    (setTimer .smp x s).deb = s.deb := rfl

@[simp] theorem setTimer_smp_smp (x : Timer) (s : State) :
    (setTimer .smp x s).smp = x := rfl

@[simp] theorem timerOf_scan (s : State) : timerOf s .scan = s.scan := rfl

@[simp] theorem timerOf_deb (s : State) : timerOf s .deb = s.deb := rfl

@[simp] theorem timerOf_smp (s : State) : timerOf s .smp = s.smp := rfl

@[simp] theorem timerOf_setTimer_same (t : TimerId) (x : Timer) (s : State) :
    timerOf (setTimer t x s) t = x := by cases t <;> rfl

theorem timerOf_setTimer_other {t t' : TimerId} (h : t' ≠ t) (x : Timer) (s : State) :
    timerOf (setTimer t x s) t' = timerOf s t' := by
  cases t <;> cases t' <;> first | rfl | exact absurd rfl h

@[simp] theorem sampleInputs_scan (now : Nat) (cols : Columns) (s : State) :
    (sampleInputs now cols s).scan = s.scan := rfl

@[simp] theorem sampleInputs_deb (now : Nat) (cols : Columns) (s : State) :
    (sampleInputs now cols s).deb = s.deb := rfl

@[simp] theorem sampleInputs_smp (now : Nat) (cols : Columns) (s : State) :
    (sampleInputs now cols s).smp = s.smp := rfl

@[simp] theorem sampleInputs_kpEnabled (now : Nat) (cols : Columns) (s : State) :
    (sampleInputs now cols s).kpEnabled = s.kpEnabled := rfl

@[simp] theorem sampleInputs_rowCounter (now : Nat) (cols : Columns) (s : State) :
    (sampleInputs now cols s).rowCounter = s.rowCounter := rfl

@[simp] theorem sampleInputs_rowPattern (now : Nat) (cols : Columns) (s : State) :
    (sampleInputs now cols s).rowPattern = s.rowPattern := rfl

@[simp] theorem sampleInputs_capturedColumns (now : Nat) (cols : Columns) (s : State) :
    (sampleInputs now cols s).capturedColumns = s.capturedColumns := rfl

@[simp] theorem sampleInputs_rawCode (now : Nat) (cols : Columns) (s : State) :
    (sampleInputs now cols s).rawCode = s.rawCode := rfl

@[simp] theorem sampleInputs_decodedKey (now : Nat) (cols : Columns) (s : State) :
    (sampleInputs now cols s).decodedKey = s.decodedKey := rfl

@[simp] theorem sampleInputs_hist (now : Nat) (cols : Columns) (s : State) :
    (sampleInputs now cols s).hist = s.hist := rfl

@[simp] theorem sampleInputs_doubleZeroFlag (now : Nat) (cols : Columns) (s : State) :
    (sampleInputs now cols s).doubleZeroFlag = s.doubleZeroFlag := rfl

@[simp] theorem sampleInputs_keyPendingFlag (now : Nat) (cols : Columns) (s : State) :
    (sampleInputs now cols s).keyPendingFlag = s.keyPendingFlag := rfl

@[simp] theorem sampleInputs_debounceActive (now : Nat) (cols : Columns) (s : State) :
    (sampleInputs now cols s).debounceActive = s.debounceActive := rfl

@[simp] theorem sampleInputs_dacCode (now : Nat) (cols : Columns) (s : State) :
    (sampleInputs now cols s).dacCode = s.dacCode := rfl

@[simp] theorem sampleInputs_rowLines (now : Nat) (cols : Columns) (s : State) :
    (sampleInputs now cols s).rowLines = s.rowLines := rfl

@[simp] theorem sampleInputs_dacLines (now : Nat) (cols : Columns) (s : State) :
    (sampleInputs now cols s).dacLines = s.dacLines := rfl

@[simp] theorem sampleInputs_lineCfg (now : Nat) (cols : Columns) (s : State) :
    (sampleInputs now cols s).lineCfg = s.lineCfg := rfl

@[simp] theorem sampleInputs_resp (now : Nat) (cols : Columns) (s : State) :
    (sampleInputs now cols s).resp = s.resp := rfl

@[simp] theorem sampleInputs_params (now : Nat) (cols : Columns) (s : State) :
    (sampleInputs now cols s).params = s.params := rfl

@[simp] theorem sampleInputs_now (now : Nat) (cols : Columns) (s : State) :
    (sampleInputs now cols s).now = now % modulus s.params := rfl

@[simp] theorem sampleInputs_cols (now : Nat) (cols : Columns) (s : State) :
    (sampleInputs now cols s).cols = cols := rfl

@[simp] theorem sampleInputs_host (now : Nat) (cols : Columns) (s : State) :
    (sampleInputs now cols s).host = s.host := rfl

@[simp] theorem sampleInputs_draws (now : Nat) (cols : Columns) (s : State) :
    (sampleInputs now cols s).draws = s.draws := rfl

@[simp] theorem respond_scan (r : Response) (s : State) : (respond r s).scan = s.scan := rfl

@[simp] theorem respond_deb (r : Response) (s : State) : (respond r s).deb = s.deb := rfl

@[simp] theorem respond_smp (r : Response) (s : State) : (respond r s).smp = s.smp := rfl

@[simp] theorem respond_kpEnabled (r : Response) (s : State) : (respond r s).kpEnabled = s.kpEnabled := rfl

@[simp] theorem respond_rowCounter (r : Response) (s : State) : (respond r s).rowCounter = s.rowCounter := rfl

@[simp] theorem respond_rowPattern (r : Response) (s : State) : (respond r s).rowPattern = s.rowPattern := rfl

@[simp] theorem respond_capturedColumns (r : Response) (s : State) : (respond r s).capturedColumns = s.capturedColumns := rfl

@[simp] theorem respond_rawCode (r : Response) (s : State) : (respond r s).rawCode = s.rawCode := rfl

@[simp] theorem respond_decodedKey (r : Response) (s : State) : (respond r s).decodedKey = s.decodedKey := rfl

@[simp] theorem respond_hist (r : Response) (s : State) : (respond r s).hist = s.hist := rfl

@[simp] theorem respond_doubleZeroFlag (r : Response) (s : State) : (respond r s).doubleZeroFlag = s.doubleZeroFlag := rfl

@[simp] theorem respond_keyPendingFlag (r : Response) (s : State) : (respond r s).keyPendingFlag = s.keyPendingFlag := rfl

@[simp] theorem respond_debounceActive (r : Response) (s : State) : (respond r s).debounceActive = s.debounceActive := rfl

@[simp] theorem respond_dacCode (r : Response) (s : State) : (respond r s).dacCode = s.dacCode := rfl

@[simp] theorem respond_rowLines (r : Response) (s : State) : (respond r s).rowLines = s.rowLines := rfl

@[simp] theorem respond_dacLines (r : Response) (s : State) : (respond r s).dacLines = s.dacLines := rfl

@[simp] theorem respond_lineCfg (r : Response) (s : State) : (respond r s).lineCfg = s.lineCfg := rfl

@[simp] theorem respond_resp (r : Response) (s : State) : (respond r s).resp = r := rfl

@[simp] theorem respond_params (r : Response) (s : State) : (respond r s).params = s.params := rfl

@[simp] theorem respond_now (r : Response) (s : State) : (respond r s).now = s.now := rfl

@[simp] theorem respond_cols (r : Response) (s : State) : (respond r s).cols = s.cols := rfl

@[simp] theorem respond_host (r : Response) (s : State) : (respond r s).host = s.host := rfl

@[simp] theorem respond_draws (r : Response) (s : State) : (respond r s).draws = s.draws := rfl

@[simp] theorem timerOf_respond (r : Response) (s : State) (t : TimerId) :
    timerOf (respond r s) t = timerOf s t := by cases t <;> rfl

@[simp] theorem timerOf_sampleInputs (now : Nat) (cols : Columns) (s : State) (t : TimerId) :
    timerOf (sampleInputs now cols s) t = timerOf s t := by cases t <;> rfl

@[simp] theorem respond_respond (a b : Response) (s : State) :
    respond a (respond b s) = respond a s := rfl

@[simp] theorem answer_eq (r : Response) (s : State) : answer r s = .next (respond r s) := rfl

end Sys2Proof.Machine
end

