-- ==== Sys2Proof/Laws/Ops.lean ====
section
/-! SUPPORT. What each shared operation does, said once: clock arithmetic, lines, columns, history,
raw codes. The provers cite these instead of unfolding the operations. -/

namespace Sys2Proof.Machine

/-! ### Clock arithmetic -/

theorem modulus_pos (p : Params) : 0 < modulus p := Nat.two_pow_pos _

/-- The values the modulus can have: one of fifteen literals. -/
theorem modulus_cases {p : Params} (h : p.LegalClock) :
    modulus p ∈ [262144, 524288, 1048576, 2097152, 4194304, 8388608, 16777216, 33554432, 67108864,
      134217728, 268435456, 536870912, 1073741824, 2147483648, 4294967296] := by
  obtain ⟨lo, hi⟩ := h
  unfold modulus
  generalize p.clkW = w at lo hi ⊢
  interval_cases w <;> decide

/-- The modulus is even and at least 2^18. -/
theorem modulus_even {p : Params} (h : p.LegalClock) :
    ∃ k, modulus p = 2 * k ∧ 131072 ≤ k ∧ modulus p / 2 = k := by
  have := modulus_cases h
  refine ⟨modulus p / 2, ?_, ?_, rfl⟩ <;>
    simp only [List.mem_cons, List.not_mem_nil, or_false] at this <;> omega

theorem tadd_lt (p : Params) (a b : Nat) : tadd p a b < modulus p :=
  Nat.mod_lt _ (modulus_pos p)

theorem periodMax_pos {p : Params} (h : p.LegalClock) : 1 ≤ periodMax p := by
  obtain ⟨k, -, hk, hd⟩ := modulus_even h
  unfold periodMax
  omega

/-- A clamped period is legal (R102). -/
theorem clampP_legal {p : Params} (h : p.LegalClock) (x : Nat) :
    1 ≤ clampP p x ∧ clampP p x ≤ periodMax p := by
  have := periodMax_pos h
  unfold clampP
  omega

/-- The difference from a moment `e` microseconds after `n0` back to a deadline `q` microseconds
after `n0` counts the microseconds since the deadline, when that many are fewer than the modulus. -/
theorem tdiff_after (p : Params) {n0 q e : Nat} (h : q ≤ e) (hw : e - q < modulus p) :
    tdiff p ((n0 + e) % modulus p) ((n0 + q) % modulus p) = e - q := by
  unfold tdiff
  have h1 : ((((n0 + e) % modulus p : Nat) : Int) - (((n0 + q) % modulus p : Nat) : Int))
      % (modulus p : Int) = ((e - q : Nat) : Int) % (modulus p : Int) := by
    push_cast [Nat.cast_sub h]
    rw [← Int.sub_emod]
    congr 1
    ring
  rw [h1, ← Int.natCast_mod, Int.toNat_natCast, Nat.mod_eq_of_lt hw]

/-- The same difference before the deadline: the modulus less the microseconds still to go. -/
theorem tdiff_before (p : Params) {n0 q e : Nat} (h : e < q) (hw : q - e < modulus p) :
    tdiff p ((n0 + e) % modulus p) ((n0 + q) % modulus p) = modulus p - (q - e) := by
  unfold tdiff
  have h1 : ((((n0 + e) % modulus p : Nat) : Int) - (((n0 + q) % modulus p : Nat) : Int))
      % (modulus p : Int) = ((modulus p - (q - e) : Nat) : Int) % (modulus p : Int) := by
    push_cast [Nat.cast_sub hw.le, Nat.cast_sub h.le]
    rw [← Int.sub_emod, ← Int.add_emod_right]
    congr 1
    ring
  rw [h1, ← Int.natCast_mod, Int.toNat_natCast, Nat.mod_eq_of_lt (by omega)]

/-- The comparator as an inequality between integers (R101, R103). -/
theorem check_iff (s : State) (t : TimerId) :
    check s t = true ↔ (timerOf s t).enabled = true ∧
      ((s.now : Int) - ((timerOf s t).nextDeadline : Int)) % (modulus s.params : Int)
        < ((modulus s.params / 2 : Nat) : Int) := by
  rw [check, Bool.and_eq_true, reached, decide_eq_true_eq, tdiff,
    Int.toNat_lt (Int.emod_nonneg _ (by exact_mod_cast (modulus_pos _).ne'))]

/-- An enabled timer whose deadline is `q` microseconds after `n0`, at `e` microseconds after `n0`:
not expired before the deadline, expired for half the modulus from it on (R101 (a)). -/
theorem check_of_elapsed {s : State} {t : TimerId} {n0 q e : Nat} (hs : s.params.LegalClock)
    (hq : q ≤ periodMax s.params) (hen : (timerOf s t).enabled = true)
    (hd : (timerOf s t).nextDeadline = (n0 + q) % modulus s.params)
    (hn : s.now = (n0 + e) % modulus s.params) (he : e < q + modulus s.params) :
    check s t = decide (q ≤ e ∧ e < q + modulus s.params / 2) := by
  obtain ⟨k, hk, hk1, hk2⟩ := modulus_even hs
  unfold periodMax at hq
  rw [check, hen, Bool.true_and, reached, hd, hn, hk2]
  by_cases h : q ≤ e
  · rw [tdiff_after _ h (by omega)]
    exact decide_eq_decide.2 (by omega)
  · rw [tdiff_before _ (by omega) (by omega)]
    exact decide_eq_decide.2 (by omega)

/-! ### Lines -/

@[simp] theorem lineWrite_getElem {w : Nat} (x : BitVec w) {l j : Nat} (v : Bool) (hj : j < w) :
    (lineWrite x l v)[j] = if j = l then v else x[j] := by
  have one : (1#w <<< l)[j] = decide (j = l) := by
    rw [BitVec.getElem_shiftLeft, BitVec.getElem_one]
    by_cases h : j = l
    · subst h; simp
    · by_cases h' : j < l
      · simp [h', h]
      · have : j - l ≠ 0 := by omega
        simp [h, this]
  unfold lineWrite
  cases v
  · simp only [Bool.false_eq_true, if_false, BitVec.getElem_and, BitVec.getElem_not, one]
    by_cases h : j = l <;> simp [h]
  · simp only [if_true, BitVec.getElem_or, one]
    by_cases h : j = l <;> simp [h]

/-- Writing every line of a group leaves the group carrying the value (R62, R65). -/
theorem driveLines_range {w : Nat} (v x : BitVec w) (ls : List Nat) (h : ∀ j < w, j ∈ ls) :
    driveLines v x ls = v := by
  have carried : ∀ (ls : List Nat) (y : BitVec w) (j : Nat) (hj : j < w),
      (driveLines v y ls)[j] = if j ∈ ls then v[j] else y[j] := by
    intro ls
    induction ls with
    | nil => intro y j hj; simp [driveLines]
    | cons l ls ih =>
      intro y j hj
      have : driveLines v y (l :: ls) = driveLines v (lineWrite y l (v.getLsbD l)) ls := rfl
      rw [this, ih, lineWrite_getElem]
      by_cases hl : j = l
      · subst hl; simp [BitVec.getLsbD_eq_getElem hj]
      · simp [hl]
  apply BitVec.eq_of_getElem_eq
  intro j hj
  rw [carried, if_pos (h j hj)]

@[simp] theorem driveRows_eq (s : State) : driveRows s = { s with rowLines := s.rowPattern } := by
  rw [driveRows, driveLines_range _ _ _ (by decide)]

@[simp] theorem driveDac_eq (s : State) : driveDac s = { s with dacLines := s.dacCode } := by
  rw [driveDac, driveLines_range _ _ _ (by decide)]

/-- Configuring the keypad's lines writes lines 0..7 and no other (R128). -/
theorem configureKeypadLines_getElem (cfg : Vector LineConfig 16) (j : Nat) (hj : j < 16) :
    (configureKeypadLines cfg)[j] =
      if j < 4 then LineConfig.driven else if j < 8 then LineConfig.sensed else cfg[j] := by
  simp only [configureKeypadLines, lineConfigure, lineNumber, List.foldl_cons, List.foldl_nil,
    Vector.getElem_set]
  interval_cases j <;> rfl

theorem configureKeypadLines_row (cfg : Vector LineConfig 16) (r : Fin 4) :
    (configureKeypadLines cfg).get (lineNumber (.row r)) = .driven := by
  rw [Vector.get_eq_getElem]
  exact (configureKeypadLines_getElem _ _ _).trans (if_pos r.isLt)

theorem configureKeypadLines_col (cfg : Vector LineConfig 16) (c : Fin 4) :
    (configureKeypadLines cfg).get (lineNumber (.col c)) = .sensed := by
  have h : ¬ 4 + c.val < 4 ∧ 4 + c.val < 8 := by omega
  rw [Vector.get_eq_getElem]
  exact (configureKeypadLines_getElem _ _ _).trans ((if_neg h.1).trans (if_pos h.2))

theorem configureKeypadLines_dac (cfg : Vector LineConfig 16) (i : Fin 8) :
    (configureKeypadLines cfg).get (lineNumber (.dac i)) = cfg.get (lineNumber (.dac i)) := by
  have h : ¬ 8 + i.val < 4 ∧ ¬ 8 + i.val < 8 := by omega
  rw [Vector.get_eq_getElem]
  exact (configureKeypadLines_getElem _ _ _).trans ((if_neg h.1).trans (if_neg h.2))

@[simp] theorem configureKeypadLines_reset : configureKeypadLines resetLineCfg = resetLineCfg := by
  decide

@[simp] theorem colIn_eq (s : State) : colIn s = columnsRead s.cols s.rowLines := by
  have key : ∀ v : BitVec 4, BitVec.ofBool (v.getLsbD 3) ++ BitVec.ofBool (v.getLsbD 2) ++
      BitVec.ofBool (v.getLsbD 1) ++ BitVec.ofBool (v.getLsbD 0) = v := by decide
  exact key _

/-- An ideal matrix answers a one-hot row pattern with that row's closed keys (R64). -/
theorem columnsRead_matrix (m : Vector (BitVec 4) 4) (r : BitVec 2) :
    columnsRead (.matrix m) ((1 : BitVec 4) <<< r.toNat) = m.get r.toFin := by
  have : r.toNat < 4 := r.isLt
  obtain ⟨⟨n, hn⟩⟩ := r
  have hn' : n < 4 := hn
  interval_cases n <;> simp [columnsRead, Vector.get_eq_getElem]

/-! ### History -/

@[simp] theorem histPush_zero (k : KeyCode) (h : Vector KeyCode 10) :
    (histPush k h).get 0 = k := rfl

@[simp] theorem histPush_succ (k : KeyCode) (h : Vector KeyCode 10) (i : Fin 9) :
    (histPush k h).get i.succ = h.get i.castSucc := by
  fin_cases i <;> rfl

/-- Pushing a key keeps the history's shape (R39 (d)). -/
theorem histPush_shape {k : KeyCode} {h : Vector KeyCode 10} (hk : k.toNat ≤ 15)
    (hh : HistoryShape h) : HistoryShape (histPush k h) := by
  have hne : k ≠ keyNone := by
    rintro rfl
    exact absurd hk (by decide)
  refine ⟨fun i => ?_, fun i j hij hi => ?_⟩
  · induction i using Fin.cases with
    | zero => exact .inl hk
    | succ i => rw [histPush_succ]; exact hh.1 _
  · induction i using Fin.cases with
    | zero => exact absurd hi hne
    | succ i =>
      induction j using Fin.cases with
      | zero => exact absurd hij (by simp)
      | succ j =>
        rw [histPush_succ] at hi ⊢
        exact hh.2 _ _ (Fin.castSucc_le_castSucc_iff.2 (Fin.succ_le_succ_iff.1 hij)) hi

/-! ### Raw codes -/

theorem oneHotIndex_eq_some {v : BitVec 4} {r : Fin 4} :
    oneHotIndex v = some r ↔ v = 1#4 <<< r.val := by
  revert v r; decide

theorem oneHotIndex_eq_none {v : BitVec 4} :
    oneHotIndex v = none ↔ ¬ ∃ r : Fin 4, v = 1#4 <<< r.val := by
  revert v; decide

theorem onehot4_eq_true {v : BitVec 4} : onehot4 v = true ↔ ∃ r : Fin 4, v = 1#4 <<< r.val := by
  revert v; decide

@[simp] theorem rawRows_rawCodeOf (c r : BitVec 4) : rawRows (rawCodeOf c r) = r := by
  revert c r; decide

@[simp] theorem rawColumns_rawCodeOf (c r : BitVec 4) : rawColumns (rawCodeOf c r) = c := by
  revert c r; decide

theorem rawCodeOf_toNat (c r : BitVec 4) : (rawCodeOf c r).toNat = 16 * c.toNat + r.toNat := by
  revert c r; decide

/-- A valid raw code decodes by the table, to a key 0..15 (R84, R85). -/
theorem decodeRaw_valid {m : Keymap} {raw : BitVec 8} (h : validRaw raw = true) :
    ∃ r c : Fin 4, rawRows raw = 1#4 <<< r.val ∧ rawColumns raw = 1#4 <<< c.val ∧
      decodeRaw m raw = some ((keyAt m r c).setWidth 5) := by
  simp only [validRaw, Bool.and_eq_true, onehot4_eq_true] at h
  obtain ⟨⟨r, hr⟩, c, hc⟩ := h
  refine ⟨r, c, hr, hc, ?_⟩
  rw [decodeRaw, oneHotIndex_eq_some.2 hr, oneHotIndex_eq_some.2 hc]

/-- An invalid raw code decodes to nothing (R84, R123). -/
theorem decodeRaw_invalid {m : Keymap} {raw : BitVec 8} (h : validRaw raw = false) :
    decodeRaw m raw = none := by
  simp only [validRaw, onehot4, Bool.and_eq_false_iff, Option.isSome_eq_false_iff,
    Option.isNone_iff_eq_none] at h
  unfold decodeRaw
  rcases h with h | h
  · rw [h]
  · rw [h]; cases oneHotIndex (rawRows raw) <;> rfl

theorem validRaw_rawCodeOf {c r : BitVec 4} :
    validRaw (rawCodeOf c r) = true ↔
      (∃ i : Fin 4, r = 1#4 <<< i.val) ∧ ∃ j : Fin 4, c = 1#4 <<< j.val := by
  simp only [validRaw, rawRows_rawCodeOf, rawColumns_rawCodeOf, Bool.and_eq_true, onehot4_eq_true]

/-- One row and one column decode to the key at their crossing (R84, R85). -/
theorem decodeRaw_crossing (m : Keymap) {c r : BitVec 4} (i j : Fin 4) (hr : r = 1#4 <<< i.val)
    (hc : c = 1#4 <<< j.val) :
    decodeRaw m (rawCodeOf c r) = some (((m.get i).get j).setWidth 5) := by
  rw [decodeRaw, rawRows_rawCodeOf, rawColumns_rawCodeOf, oneHotIndex_eq_some.2 hr,
    oneHotIndex_eq_some.2 hc]
  rfl

/-- Anything else decodes to nothing (R84, R123). -/
theorem decodeRaw_no_crossing (m : Keymap) {c r : BitVec 4}
    (h : ¬ ∃ i j : Fin 4, r = 1#4 <<< i.val ∧ c = 1#4 <<< j.val) :
    decodeRaw m (rawCodeOf c r) = none := by
  refine decodeRaw_invalid (Bool.not_eq_true _ |>.mp fun hv => ?_)
  obtain ⟨⟨i, hi⟩, j, hj⟩ := validRaw_rawCodeOf.1 hv
  exact h ⟨i, j, hi, hj⟩

theorem setWidth_key_le (k : BitVec 4) : (k.setWidth 5).toNat ≤ 15 := by
  revert k; decide

end Sys2Proof.Machine
end

