-- ==== Sys2Proof/Laws/Phases.lean ====
section
/-! SUPPORT. What each phase of the keypad and each update of the DAC stage does, said once, and that
each keeps the invariant of Safety.lean. -/

namespace Sys2Proof.Machine

/-! ### What they do -/

@[simp] theorem pRowAdv_eq (s : State) :
    pRowAdv s =
      { s with
        rowCounter := s.rowCounter + 1
        rowPattern := (1 : BitVec 4) <<< (s.rowCounter + 1).toNat
        rowLines := (1 : BitVec 4) <<< (s.rowCounter + 1).toNat } := by
  simp [pRowAdv]

@[simp] theorem pSample_eq (s : State) :
    pSample s = { s with capturedColumns := columnsRead s.cols s.rowLines } := by
  simp [pSample]

@[simp] theorem writeDac_eq (mv : Int) (s : State) :
    writeDac mv s = { s with dacCode := quant mv, dacLines := quant mv } := by
  simp [writeDac]

/-- The decode phase (R123, R124), as one record update. -/
theorem pDecode_eq (s : State) :
    pDecode s =
      { s with
        rawCode := rawCodeOf s.capturedColumns s.rowPattern
        decodedKey :=
          (decodeRaw s.params.keymap (rawCodeOf s.capturedColumns s.rowPattern)).getD
            s.decodedKey } := rfl

/-- The capture phase either pushes or does nothing (R125). -/
theorem pCapture_cases (s : State) :
    (captures s = true ∧ pCapture s =
      { s with
        hist := histPush s.decodedKey s.hist
        keyPendingFlag := true
        debounceActive := true
        deb := { s.deb with nextDeadline := tadd s.params s.now s.deb.period } }) ∨
    (captures s = false ∧ pCapture s = s) := by
  unfold pCapture
  cases captures s
  · exact .inr ⟨rfl, rfl⟩
  · exact .inl ⟨rfl, rfl⟩

/-- What a capture needs (R125). -/
theorem captures_iff (s : State) :
    captures s = true ↔
      s.capturedColumns ≠ 0 ∧ validRaw s.rawCode = true ∧ s.debounceActive = false := by
  simp [captures, and_assoc]

/-- The release phase either opens the lock-out or does nothing (R126). -/
theorem pRelease_cases (s : State) :
    (s.debounceActive = true ∧ check s .deb = true ∧ pRelease s =
      { s with debounceActive := false, rawCode := 0, decodedKey := keyNone }) ∨
    ((s.debounceActive = true → check s .deb = false) ∧ pRelease s = s) := by
  unfold pRelease
  cases h : s.debounceActive
  · exact .inr ⟨by simp, rfl⟩
  · cases h' : check s .deb
    · exact .inr ⟨by simp, rfl⟩
    · exact .inl ⟨rfl, rfl, rfl⟩

/-- `KP.INIT` as one record update (R128). -/
theorem keypadInit_eq (deb : Nat) (s : State) :
    keypadInit deb s =
      { s with
        scan :=
          { nextDeadline := tadd s.params s.now (clampP s.params s.params.scanPeriodUs)
            period := clampP s.params s.params.scanPeriodUs, enabled := true }
        deb :=
          { nextDeadline := tadd s.params s.now (clampP s.params deb)
            period := clampP s.params deb, enabled := true }
        kpEnabled := true, rowCounter := 0, rowPattern := 0b0001, rowLines := 0b0001
        capturedColumns := 0, rawCode := 0, decodedKey := keyNone
        hist := Vector.replicate 10 keyNone
        doubleZeroFlag := false, keyPendingFlag := false, debounceActive := false
        lineCfg := configureKeypadLines s.lineCfg } := by
  unfold keypadInit
  rw [driveRows_eq]
  rfl

/-! ### They keep the invariant -/

/-- The response is no part of the invariant. -/
theorem State.Inv.answered {s : State} (h : s.Inv) (r : Response) : State.Inv (respond r s) :=
  { params := h.params, now := h.now, scan := h.scan, deb := h.deb, smp := h.smp
    rowPattern := h.rowPattern, rowLines := h.rowLines, decodedKey := h.decodedKey
    hist := h.hist, rawCode := h.rawCode, dacLines := h.dacLines, lineCfg := h.lineCfg }

/-- A timer command that writes a legal record keeps the invariant. -/
theorem State.Inv.setTimer {s : State} (h : s.Inv) (t : TimerId) {x : Timer}
    (hx : Timer.Legal s.params x) : State.Inv (setTimer t x s) := by
  cases t
  · exact { h with scan := hx }
  · exact { h with deb := hx }
  · exact { h with smp := hx }

/-- Every timer record of a sound state is legal. -/
theorem State.Inv.timer {s : State} (h : s.Inv) (t : TimerId) :
    Timer.Legal s.params (timerOf s t) := by
  cases t
  · exact h.scan
  · exact h.deb
  · exact h.smp

theorem State.Inv.rowAdv {s : State} (h : s.Inv) : State.Inv (pRowAdv s) := by
  rw [pRowAdv_eq]
  exact { h with rowPattern := rfl, rowLines := rfl }

theorem State.Inv.sample {s : State} (h : s.Inv) : State.Inv (pSample s) := by
  rw [pSample_eq]
  exact { h with }

/-- A one-hot row pattern makes the row nibble of a formed raw code one-hot. -/
theorem State.Inv.rowOneHot {s : State} (h : s.Inv) : onehot4 s.rowPattern = true := by
  rw [h.rowPattern]
  generalize s.rowCounter = c
  revert c
  decide

theorem State.Inv.decode {s : State} (h : s.Inv) : State.Inv (pDecode s) := by
  rw [pDecode_eq]
  refine { h with decodedKey := ?_, rawCode := .inr ?_ }
  · cases hv : validRaw (rawCodeOf s.capturedColumns s.rowPattern)
    · rw [decodeRaw_invalid hv]
      exact h.decodedKey
    · obtain ⟨r, c, -, -, hd⟩ := decodeRaw_valid (m := s.params.keymap) hv
      rw [hd]
      exact .inl (setWidth_key_le _)
  · rw [rawRows_rawCodeOf]
    exact h.rowOneHot

/-- After a decode, a valid raw code stands beside a key 0..15 (R39 (d)). -/
theorem pDecode_key {s : State} (hv : validRaw (pDecode s).rawCode = true) :
    (pDecode s).decodedKey.toNat ≤ 15 := by
  rw [pDecode_eq] at hv ⊢
  obtain ⟨r, c, -, -, hd⟩ := decodeRaw_valid (m := s.params.keymap) hv
  simp only [hd, Option.getD_some]
  exact setWidth_key_le _

theorem State.Inv.capture {s : State} (h : s.Inv)
    (hk : validRaw s.rawCode = true → s.decodedKey.toNat ≤ 15) : State.Inv (pCapture s) := by
  obtain ⟨hc, he⟩ | ⟨-, he⟩ := pCapture_cases s <;> rw [he]
  · exact { h with
      deb := ⟨tadd_lt _ _ _, h.deb.2⟩
      hist := histPush_shape (hk ((captures_iff s).1 hc).2.1) h.hist }
  · exact h

theorem State.Inv.release {s : State} (h : s.Inv) : State.Inv (pRelease s) := by
  obtain ⟨-, -, he⟩ | ⟨-, he⟩ := pRelease_cases s <;> rw [he]
  · exact { h with decodedKey := .inr rfl, rawCode := .inl rfl }
  · exact h

theorem State.Inv.dacWritten {s : State} (h : s.Inv) (mv : Int) : State.Inv (writeDac mv s) := by
  rw [writeDac_eq]
  exact { h with dacLines := rfl }

end Sys2Proof.Machine
end

