-- ==== Sys2Proof/Laws/Frames.lean ====
section
/-! SUPPORT. The frames of the shared operations and phases: every field that one leaves as it was,
one lemma per field, so that a frame of a command is closed by simp. -/

namespace Sys2Proof.Machine

/-! ### Timer operations as a write of one record -/

@[simp] theorem timerInit_eq (t : TimerId) (p : Nat) (s : State) :
    timerInit t p s = setTimer t
      { nextDeadline := tadd s.params s.now (clampP s.params p), period := clampP s.params p
        enabled := true } s := rfl

@[simp] theorem timerAdvanceFromNow_eq (t : TimerId) (s : State) :
    timerAdvanceFromNow t s = setTimer t
      { nextDeadline := tadd s.params s.now (timerOf s t).period, period := (timerOf s t).period
        enabled := (timerOf s t).enabled } s := rfl

@[simp] theorem timerAdvanceByPeriod_eq (t : TimerId) (s : State) :
    timerAdvanceByPeriod t s = setTimer t
      { nextDeadline := tadd s.params (timerOf s t).nextDeadline (timerOf s t).period
        period := (timerOf s t).period, enabled := (timerOf s t).enabled } s := rfl

@[simp] theorem timerSetPeriod_eq (t : TimerId) (p : Nat) (s : State) :
    timerSetPeriod t p s = setTimer t
      { nextDeadline := (timerOf s t).nextDeadline, period := clampP s.params p
        enabled := (timerOf s t).enabled } s := rfl

@[simp] theorem timerSetEnabled_eq (t : TimerId) (b : Bool) (s : State) :
    timerSetEnabled t b s = setTimer t
      { nextDeadline := (timerOf s t).nextDeadline, period := (timerOf s t).period
        enabled := b } s := rfl

/-- The comparator reads the timer's record, the parameters and the sampled clock only (R103). -/
theorem check_congr {s u : State} {t : TimerId} (ht : timerOf u t = timerOf s t)
    (hp : u.params = s.params) (hn : u.now = s.now) : check u t = check s t := by
  unfold check
  rw [ht, hp, hn]

/-! ### Phases -/

@[simp] theorem pDecode_scan (s : State) : (pDecode s).scan = s.scan := rfl

@[simp] theorem pDecode_deb (s : State) : (pDecode s).deb = s.deb := rfl

@[simp] theorem pDecode_smp (s : State) : (pDecode s).smp = s.smp := rfl

@[simp] theorem pDecode_kpEnabled (s : State) : (pDecode s).kpEnabled = s.kpEnabled := rfl

@[simp] theorem pDecode_rowCounter (s : State) : (pDecode s).rowCounter = s.rowCounter := rfl

@[simp] theorem pDecode_rowPattern (s : State) : (pDecode s).rowPattern = s.rowPattern := rfl

@[simp] theorem pDecode_capturedColumns (s : State) : (pDecode s).capturedColumns = s.capturedColumns := rfl

@[simp] theorem pDecode_hist (s : State) : (pDecode s).hist = s.hist := rfl

@[simp] theorem pDecode_doubleZeroFlag (s : State) : (pDecode s).doubleZeroFlag = s.doubleZeroFlag := rfl

@[simp] theorem pDecode_keyPendingFlag (s : State) : (pDecode s).keyPendingFlag = s.keyPendingFlag := rfl

@[simp] theorem pDecode_debounceActive (s : State) : (pDecode s).debounceActive = s.debounceActive := rfl

@[simp] theorem pDecode_dacCode (s : State) : (pDecode s).dacCode = s.dacCode := rfl

@[simp] theorem pDecode_rowLines (s : State) : (pDecode s).rowLines = s.rowLines := rfl

@[simp] theorem pDecode_dacLines (s : State) : (pDecode s).dacLines = s.dacLines := rfl

@[simp] theorem pDecode_lineCfg (s : State) : (pDecode s).lineCfg = s.lineCfg := rfl

@[simp] theorem pDecode_resp (s : State) : (pDecode s).resp = s.resp := rfl

@[simp] theorem pDecode_params (s : State) : (pDecode s).params = s.params := rfl

@[simp] theorem pDecode_now (s : State) : (pDecode s).now = s.now := rfl

@[simp] theorem pDecode_cols (s : State) : (pDecode s).cols = s.cols := rfl

@[simp] theorem pDecode_host (s : State) : (pDecode s).host = s.host := rfl

@[simp] theorem pDecode_draws (s : State) : (pDecode s).draws = s.draws := rfl

@[simp] theorem pCapture_scan (s : State) : (pCapture s).scan = s.scan := by
  unfold pCapture; split <;> rfl

@[simp] theorem pCapture_smp (s : State) : (pCapture s).smp = s.smp := by
  unfold pCapture; split <;> rfl

@[simp] theorem pCapture_kpEnabled (s : State) : (pCapture s).kpEnabled = s.kpEnabled := by
  unfold pCapture; split <;> rfl

@[simp] theorem pCapture_rowCounter (s : State) : (pCapture s).rowCounter = s.rowCounter := by
  unfold pCapture; split <;> rfl

@[simp] theorem pCapture_rowPattern (s : State) : (pCapture s).rowPattern = s.rowPattern := by
  unfold pCapture; split <;> rfl

@[simp] theorem pCapture_capturedColumns (s : State) : (pCapture s).capturedColumns = s.capturedColumns := by
  unfold pCapture; split <;> rfl

@[simp] theorem pCapture_rawCode (s : State) : (pCapture s).rawCode = s.rawCode := by
  unfold pCapture; split <;> rfl

@[simp] theorem pCapture_decodedKey (s : State) : (pCapture s).decodedKey = s.decodedKey := by
  unfold pCapture; split <;> rfl

@[simp] theorem pCapture_doubleZeroFlag (s : State) : (pCapture s).doubleZeroFlag = s.doubleZeroFlag := by
  unfold pCapture; split <;> rfl

@[simp] theorem pCapture_dacCode (s : State) : (pCapture s).dacCode = s.dacCode := by
  unfold pCapture; split <;> rfl

@[simp] theorem pCapture_rowLines (s : State) : (pCapture s).rowLines = s.rowLines := by
  unfold pCapture; split <;> rfl

@[simp] theorem pCapture_dacLines (s : State) : (pCapture s).dacLines = s.dacLines := by
  unfold pCapture; split <;> rfl

@[simp] theorem pCapture_lineCfg (s : State) : (pCapture s).lineCfg = s.lineCfg := by
  unfold pCapture; split <;> rfl

@[simp] theorem pCapture_resp (s : State) : (pCapture s).resp = s.resp := by
  unfold pCapture; split <;> rfl

@[simp] theorem pCapture_params (s : State) : (pCapture s).params = s.params := by
  unfold pCapture; split <;> rfl

@[simp] theorem pCapture_now (s : State) : (pCapture s).now = s.now := by
  unfold pCapture; split <;> rfl

@[simp] theorem pCapture_cols (s : State) : (pCapture s).cols = s.cols := by
  unfold pCapture; split <;> rfl

@[simp] theorem pCapture_host (s : State) : (pCapture s).host = s.host := by
  unfold pCapture; split <;> rfl

@[simp] theorem pCapture_draws (s : State) : (pCapture s).draws = s.draws := by
  unfold pCapture; split <;> rfl

@[simp] theorem pRelease_scan (s : State) : (pRelease s).scan = s.scan := by
  unfold pRelease; split <;> rfl

@[simp] theorem pRelease_deb (s : State) : (pRelease s).deb = s.deb := by
  unfold pRelease; split <;> rfl

@[simp] theorem pRelease_smp (s : State) : (pRelease s).smp = s.smp := by
  unfold pRelease; split <;> rfl

@[simp] theorem pRelease_kpEnabled (s : State) : (pRelease s).kpEnabled = s.kpEnabled := by
  unfold pRelease; split <;> rfl

@[simp] theorem pRelease_rowCounter (s : State) : (pRelease s).rowCounter = s.rowCounter := by
  unfold pRelease; split <;> rfl

@[simp] theorem pRelease_rowPattern (s : State) : (pRelease s).rowPattern = s.rowPattern := by
  unfold pRelease; split <;> rfl

@[simp] theorem pRelease_capturedColumns (s : State) : (pRelease s).capturedColumns = s.capturedColumns := by
  unfold pRelease; split <;> rfl

@[simp] theorem pRelease_hist (s : State) : (pRelease s).hist = s.hist := by
  unfold pRelease; split <;> rfl

@[simp] theorem pRelease_doubleZeroFlag (s : State) : (pRelease s).doubleZeroFlag = s.doubleZeroFlag := by
  unfold pRelease; split <;> rfl

@[simp] theorem pRelease_keyPendingFlag (s : State) : (pRelease s).keyPendingFlag = s.keyPendingFlag := by
  unfold pRelease; split <;> rfl

@[simp] theorem pRelease_dacCode (s : State) : (pRelease s).dacCode = s.dacCode := by
  unfold pRelease; split <;> rfl

@[simp] theorem pRelease_rowLines (s : State) : (pRelease s).rowLines = s.rowLines := by
  unfold pRelease; split <;> rfl

@[simp] theorem pRelease_dacLines (s : State) : (pRelease s).dacLines = s.dacLines := by
  unfold pRelease; split <;> rfl

@[simp] theorem pRelease_lineCfg (s : State) : (pRelease s).lineCfg = s.lineCfg := by
  unfold pRelease; split <;> rfl

@[simp] theorem pRelease_resp (s : State) : (pRelease s).resp = s.resp := by
  unfold pRelease; split <;> rfl

@[simp] theorem pRelease_params (s : State) : (pRelease s).params = s.params := by
  unfold pRelease; split <;> rfl

@[simp] theorem pRelease_now (s : State) : (pRelease s).now = s.now := by
  unfold pRelease; split <;> rfl

@[simp] theorem pRelease_cols (s : State) : (pRelease s).cols = s.cols := by
  unfold pRelease; split <;> rfl

@[simp] theorem pRelease_host (s : State) : (pRelease s).host = s.host := by
  unfold pRelease; split <;> rfl

@[simp] theorem pRelease_draws (s : State) : (pRelease s).draws = s.draws := by
  unfold pRelease; split <;> rfl

@[simp] theorem scanBranch_smp (s : State) : (scanBranch s).smp = s.smp := by
  simp [scanBranch]

@[simp] theorem scanBranch_kpEnabled (s : State) : (scanBranch s).kpEnabled = s.kpEnabled := by
  simp [scanBranch]

@[simp] theorem scanBranch_doubleZeroFlag (s : State) : (scanBranch s).doubleZeroFlag = s.doubleZeroFlag := by
  simp [scanBranch]

@[simp] theorem scanBranch_dacCode (s : State) : (scanBranch s).dacCode = s.dacCode := by
  simp [scanBranch]

@[simp] theorem scanBranch_dacLines (s : State) : (scanBranch s).dacLines = s.dacLines := by
  simp [scanBranch]

@[simp] theorem scanBranch_lineCfg (s : State) : (scanBranch s).lineCfg = s.lineCfg := by
  simp [scanBranch]

@[simp] theorem scanBranch_resp (s : State) : (scanBranch s).resp = s.resp := by
  simp [scanBranch]

@[simp] theorem scanBranch_params (s : State) : (scanBranch s).params = s.params := by
  simp [scanBranch]

@[simp] theorem scanBranch_now (s : State) : (scanBranch s).now = s.now := by
  simp [scanBranch]

@[simp] theorem scanBranch_cols (s : State) : (scanBranch s).cols = s.cols := by
  simp [scanBranch]

@[simp] theorem scanBranch_host (s : State) : (scanBranch s).host = s.host := by
  simp [scanBranch]

@[simp] theorem scanBranch_draws (s : State) : (scanBranch s).draws = s.draws := by
  simp [scanBranch]

@[simp] theorem keypadTick_smp (s : State) : (keypadTick s).smp = s.smp := by
  unfold keypadTick; split <;> simp

@[simp] theorem keypadTick_kpEnabled (s : State) : (keypadTick s).kpEnabled = s.kpEnabled := by
  unfold keypadTick; split <;> simp

@[simp] theorem keypadTick_doubleZeroFlag (s : State) : (keypadTick s).doubleZeroFlag = s.doubleZeroFlag := by
  unfold keypadTick; split <;> simp

@[simp] theorem keypadTick_dacCode (s : State) : (keypadTick s).dacCode = s.dacCode := by
  unfold keypadTick; split <;> simp

@[simp] theorem keypadTick_dacLines (s : State) : (keypadTick s).dacLines = s.dacLines := by
  unfold keypadTick; split <;> simp

@[simp] theorem keypadTick_lineCfg (s : State) : (keypadTick s).lineCfg = s.lineCfg := by
  unfold keypadTick; split <;> simp

@[simp] theorem keypadTick_resp (s : State) : (keypadTick s).resp = s.resp := by
  unfold keypadTick; split <;> simp

@[simp] theorem keypadTick_params (s : State) : (keypadTick s).params = s.params := by
  unfold keypadTick; split <;> simp

@[simp] theorem keypadTick_now (s : State) : (keypadTick s).now = s.now := by
  unfold keypadTick; split <;> simp

@[simp] theorem keypadTick_cols (s : State) : (keypadTick s).cols = s.cols := by
  unfold keypadTick; split <;> simp

@[simp] theorem keypadTick_host (s : State) : (keypadTick s).host = s.host := by
  unfold keypadTick; split <;> simp

@[simp] theorem keypadTick_draws (s : State) : (keypadTick s).draws = s.draws := by
  unfold keypadTick; split <;> simp

/-! ### The enable gate -/

theorem whenEnabled_of_enabled {f : State → State} {s : State} (h : s.kpEnabled = true) :
    whenEnabled f s = f s := by
  simp [whenEnabled, h]

theorem whenEnabled_of_disabled {f : State → State} {s : State} (h : s.kpEnabled = false) :
    whenEnabled f s = s := by
  simp [whenEnabled, h]

/-- A gated operation either runs or does nothing (R120). -/
theorem whenEnabled_cases (f : State → State) (s : State) :
    (s.kpEnabled = true ∧ whenEnabled f s = f s) ∨
    (s.kpEnabled = false ∧ whenEnabled f s = s) := by
  cases h : s.kpEnabled
  · exact .inr ⟨rfl, whenEnabled_of_disabled h⟩
  · exact .inl ⟨rfl, whenEnabled_of_enabled h⟩

/-! ### The response does not enter a phase -/

theorem pRowAdv_respond (r : Response) (s : State) :
    pRowAdv (respond r s) = respond r (pRowAdv s) := rfl

theorem pSample_respond (r : Response) (s : State) :
    pSample (respond r s) = respond r (pSample s) := rfl

theorem pDecode_respond (r : Response) (s : State) :
    pDecode (respond r s) = respond r (pDecode s) := rfl

theorem pCapture_respond (r : Response) (s : State) :
    pCapture (respond r s) = respond r (pCapture s) := by
  have h : captures (respond r s) = captures s := rfl
  unfold pCapture
  rw [h]
  split <;> rfl

theorem pRelease_respond (r : Response) (s : State) :
    pRelease (respond r s) = respond r (pRelease s) := by
  have h : ((respond r s).debounceActive && check (respond r s) .deb)
      = (s.debounceActive && check s .deb) := rfl
  unfold pRelease
  rw [h]
  split <;> rfl

/-! ### The lock-out -/

/-- While the lock-out is set the capture phase does nothing (R125). -/
theorem pCapture_locked {s : State} (h : s.debounceActive = true) : pCapture s = s := by
  obtain ⟨hc, -⟩ | ⟨-, he⟩ := pCapture_cases s
  · exact absurd ((captures_iff s).1 hc).2.2 (by simp [h])
  · exact he

/-- While the lock-out is set the scan branch pushes nothing and leaves the debounce timer (R125,
R129). -/
theorem scanBranch_locked {s : State} (h : s.debounceActive = true) :
    (scanBranch s).hist = s.hist ∧ (scanBranch s).debounceActive = true ∧
      (scanBranch s).deb = s.deb ∧ (scanBranch s).keyPendingFlag = s.keyPendingFlag := by
  unfold scanBranch
  rw [pCapture_locked (by simpa [pDecode] using h)]
  simp [pDecode, h]

end Sys2Proof.Machine
end

