-- ==== Sys2Proof/Laws/Keymap.lean ====
section
/-! SUPPORT. The entries of the open decode table (30_encoding.md R85), and that the default parameters
are legal ones. -/

namespace Sys2Proof

theorem Config.openKeymap_get (r c : Fin 4) :
    (Config.openKeymap.get r).get c = Config.openKey r c := by
  match r, c with
  | 0, 0 | 0, 1 | 0, 2 | 0, 3 => rfl
  | 1, 0 | 1, 1 | 1, 2 | 1, 3 => rfl
  | 2, 0 | 2, 1 | 2, 2 | 2, 3 => rfl
  | 3, 0 | 3, 1 | 3, 2 | 3, 3 => rfl

theorem Config.openKey_five : Config.openKey 3 Config.keyFiveColumn = 5 := if_pos ⟨rfl, rfl⟩

theorem Config.defaultParams_legal : Config.defaultParams.Legal :=
  ⟨by decide, by decide, Config.keyFiveColumn,
    (Config.openKeymap_get 3 _).trans Config.openKey_five⟩

end Sys2Proof
end

