-- ==== Sys2Proof/Laws/PerInstr.lean ====
section
/-! SUPPORT. The per-instruction family FieldsRoundTrip: the opcode byte and operand field of a
well-formed instruction decode to it (30_encoding.md R81, R82), one lemma per constructor. -/

namespace Sys2Proof.Laws.FieldsRoundTrip

/-- The fields of a well-formed instruction decode to it. -/
def Statement (i : Instr) : Prop :=
  i.wellFormed = true → decodeFields (opcodeByte i) (operandField i) = .ok i

/-- An unsigned operand that fits its field reads back (R82). -/
theorem unsigned_reads_back {n : Nat} (h : fitsUnsigned32 n = true) : (BitVec.ofNat 32 n).toNat = n := by
  rw [BitVec.toNat_ofNat]
  exact Nat.mod_eq_of_lt (of_decide_eq_true h)

/-- A millivolt operand that fits its field reads back (R82). -/
theorem signed_reads_back {v : Int} (h : fitsSigned32 v = true) : (BitVec.ofInt 32 v).toInt = v := by
  obtain ⟨lo, hi⟩ := of_decide_eq_true h
  rw [BitVec.toInt_ofInt, Int.bmod_def]
  split <;> omega

theorem tmrInitScan (n : Nat) : Statement (.tmrInitScan n) := fun h =>
  congrArg (fun m => Except.ok (Instr.tmrInitScan m)) (unsigned_reads_back h)

theorem tmrCheckScan : Statement .tmrCheckScan := fun _ => rfl

theorem tmrAdvnScan : Statement .tmrAdvnScan := fun _ => rfl

theorem tmrAdvpScan : Statement .tmrAdvpScan := fun _ => rfl

theorem tmrSetpScan (n : Nat) : Statement (.tmrSetpScan n) := fun h =>
  congrArg (fun m => Except.ok (Instr.tmrSetpScan m)) (unsigned_reads_back h)

theorem tmrEnScan : Statement .tmrEnScan := fun _ => rfl

theorem tmrDisScan : Statement .tmrDisScan := fun _ => rfl

theorem tmrInitDeb (n : Nat) : Statement (.tmrInitDeb n) := fun h =>
  congrArg (fun m => Except.ok (Instr.tmrInitDeb m)) (unsigned_reads_back h)

theorem tmrCheckDeb : Statement .tmrCheckDeb := fun _ => rfl

theorem tmrAdvnDeb : Statement .tmrAdvnDeb := fun _ => rfl

theorem tmrAdvpDeb : Statement .tmrAdvpDeb := fun _ => rfl

theorem tmrSetpDeb (n : Nat) : Statement (.tmrSetpDeb n) := fun h =>
  congrArg (fun m => Except.ok (Instr.tmrSetpDeb m)) (unsigned_reads_back h)

theorem tmrEnDeb : Statement .tmrEnDeb := fun _ => rfl

theorem tmrDisDeb : Statement .tmrDisDeb := fun _ => rfl

theorem tmrInitSmp (n : Nat) : Statement (.tmrInitSmp n) := fun h =>
  congrArg (fun m => Except.ok (Instr.tmrInitSmp m)) (unsigned_reads_back h)

theorem tmrCheckSmp : Statement .tmrCheckSmp := fun _ => rfl

theorem tmrAdvnSmp : Statement .tmrAdvnSmp := fun _ => rfl

theorem tmrAdvpSmp : Statement .tmrAdvpSmp := fun _ => rfl

theorem tmrSetpSmp (n : Nat) : Statement (.tmrSetpSmp n) := fun h =>
  congrArg (fun m => Except.ok (Instr.tmrSetpSmp m)) (unsigned_reads_back h)

theorem tmrEnSmp : Statement .tmrEnSmp := fun _ => rfl

theorem tmrDisSmp : Statement .tmrDisSmp := fun _ => rfl

theorem tmrSetf (n : Nat) : Statement (.tmrSetf n) := fun h =>
  congrArg (fun m => Except.ok (Instr.tmrSetf m)) (unsigned_reads_back h)

theorem kpInit (n : Nat) : Statement (.kpInit n) := fun h =>
  congrArg (fun m => Except.ok (Instr.kpInit m)) (unsigned_reads_back h)

theorem kpTick : Statement .kpTick := fun _ => rfl

theorem kpRowadv : Statement .kpRowadv := fun _ => rfl

theorem kpSample : Statement .kpSample := fun _ => rfl

theorem kpDecode : Statement .kpDecode := fun _ => rfl

theorem kpCapture : Statement .kpCapture := fun _ => rfl

theorem kpRelease : Statement .kpRelease := fun _ => rfl

theorem kpGetkey : Statement .kpGetkey := fun _ => rfl

theorem kpSetdz : Statement .kpSetdz := fun _ => rfl

theorem kpClrdz : Statement .kpClrdz := fun _ => rfl

theorem kpIsdz : Statement .kpIsdz := fun _ => rfl

theorem kpAck : Statement .kpAck := fun _ => rfl

theorem kpStat : Statement .kpStat := fun _ => rfl

theorem kpHist (n : Nat) : Statement (.kpHist n) := fun h =>
  congrArg (fun m => Except.ok (Instr.kpHist m)) (unsigned_reads_back h)

theorem kpEn : Statement .kpEn := fun _ => rfl

theorem kpDis : Statement .kpDis := fun _ => rfl

theorem dacSet (v : Int) : Statement (.dacSet v) := fun h =>
  congrArg (fun m => Except.ok (Instr.dacSet m)) (signed_reads_back h)

theorem dacTick (v : Int) : Statement (.dacTick v) := fun h =>
  congrArg (fun m => Except.ok (Instr.dacTick m)) (signed_reads_back h)

end Sys2Proof.Laws.FieldsRoundTrip
end

