-- ==== Sys2Proof/Laws/Status.lean ====
section
/-! SUPPORT. The fields of the status word (30_encoding.md R89), read back from it. -/

namespace Sys2Proof.Machine

/-- Bit `j` of the status word, field by field. -/
theorem statusWord_getLsbD (s : State) (j : Nat) :
    (statusWord s).getLsbD j =
      if j < 5 then s.decodedKey.getLsbD j
      else if j - 5 < 8 then s.rawCode.getLsbD (j - 5)
      else if j - 5 - 8 < 4 then s.capturedColumns.getLsbD (j - 5 - 8)
      else if j - 5 - 8 - 4 < 4 then s.rowPattern.getLsbD (j - 5 - 8 - 4)
      else if j - 5 - 8 - 4 - 4 < 2 then s.rowCounter.getLsbD (j - 5 - 8 - 4 - 4)
      else if j - 5 - 8 - 4 - 4 - 2 < 1 then s.debounceActive
      else if j - 5 - 8 - 4 - 4 - 2 - 1 < 1 then s.keyPendingFlag
      else if j - 5 - 8 - 4 - 4 - 2 - 1 - 1 < 1 then s.doubleZeroFlag
      else if j - 5 - 8 - 4 - 4 - 2 - 1 - 1 - 1 < 1 then s.kpEnabled
      else false := by
  have bit : ∀ (b : Bool) (n : Nat), n < 1 → (BitVec.ofBool b).getLsbD n = b := by
    intro b n h
    obtain rfl : n = 0 := by omega
    cases b <;> rfl
  have app : ∀ {n m : Nat} (x : BitVec n) (y : BitVec m) (i : Nat),
      (x ++ y).getLsbD i = if i < m then y.getLsbD i else x.getLsbD (i - m) :=
    fun _ _ _ => BitVec.getLsbD_append
  unfold statusWord
  refine (app _ _ _).trans (if_congr Iff.rfl rfl ?_)
  refine (app _ _ _).trans (if_congr Iff.rfl rfl ?_)
  refine (app _ _ _).trans (if_congr Iff.rfl rfl ?_)
  refine (app _ _ _).trans (if_congr Iff.rfl rfl ?_)
  refine (app _ _ _).trans (if_congr Iff.rfl rfl ?_)
  refine (app _ _ _).trans (ite_congr rfl (fun h => bit _ _ h) fun _ => ?_)
  refine (app _ _ _).trans (ite_congr rfl (fun h => bit _ _ h) fun _ => ?_)
  refine (app _ _ _).trans (ite_congr rfl (fun h => bit _ _ h) fun _ => ?_)
  exact (app _ _ _).trans (ite_congr rfl (fun h => bit _ _ h) fun _ => by simp)

end Sys2Proof.Machine
end

