-- ==== Sys2Proof/Laws/Step.lean ====
section
/-! SUPPORT. What one step does with the host's next event, and how a run unfolds. -/

namespace Sys2Proof.Machine

theorem step_of_idle {s : State} {rest : List HostEvent} (h : s.host = .idle :: rest) :
    step s = .next { s with host := rest } := by
  simp only [step, h, performEvent]

theorem step_of_reset {s : State} {rest : List HostEvent} (h : s.host = .reset :: rest) :
    step s = .next (hardwareReset { s with host := rest }) := by
  simp only [step, h, performEvent]

theorem step_of_command {s : State} {w : CommandWord} {n : Nat} {c : Columns}
    {rest : List HostEvent} (h : s.host = .command w n c :: rest) :
    step s = performCommand w (sampleInputs n c { s with host := rest }) := by
  simp only [step, h, performEvent]

theorem performCommand_of_decode {w : CommandWord} {i : Instr} (h : decode w = .ok i) (s : State) :
    performCommand w s = exec i s := by
  simp only [performCommand, h]

theorem performCommand_of_error {w : CommandWord} {e : DecodeError} (h : decode w = .error e)
    (s : State) : performCommand w s = .next (respond 0 s) := by
  simp only [performCommand, h, ignoreReserved, answer]

/-- A run of one step more, on any machine behind the host's interface. -/
theorem run_succ_of {M : Host.Core} {k : Nat} {s u : M.State} (h : M.step s = .next u) :
    M.run (k + 1) s = M.run k u := by
  rw [Host.Core.run.eq_def]
  simp only [h]

/-- A run of one step more, on this machine. -/
theorem run_succ {k : Nat} {s u : State} (h : step s = .next u) :
    Host.Core.run core (k + 1) s = Host.Core.run core k u :=
  run_succ_of (M := core) h

end Sys2Proof.Machine
end

