-- ==== Sys2Proof/Machine/Text.lean ====
section
/-! DEFINITION. The text form of commands and trace lines (30_encoding.md R92), read from characters.
`cols(rp)`, the columns as a function of the row pattern, has no text form in R92; it is
`Columns.matrix`. -/

namespace Sys2Proof.Machine

/-- The value of a digit in the given base; hexadecimal letters of either case (DESIGN CHOICE, log
12). -/
def digitValue (base : Nat) (c : Char) : Option Nat :=
  let n := c.toNat
  let v := if 48 ≤ n ∧ n ≤ 57 then n - 48
    else if 97 ≤ n ∧ n ≤ 102 then n - 87
    else if 65 ≤ n ∧ n ≤ 70 then n - 55
    else base
  if v < base then some v else none

/-- The number a row of digits stands for, after the digits that give `acc`. -/
def digitsFrom (base acc : Nat) : List Char → Option Nat
  | [] => some acc
  | c :: cs =>
    match digitValue base c with
    | some d => digitsFrom base (acc * base + d) cs
    | none => none

/-- An unsigned integer, decimal or hexadecimal with `0x` (R92). -/
def readNat : List Char → Option Nat
  | [] => none
  | '0' :: 'x' :: c :: cs => digitsFrom 16 0 (c :: cs)
  | c :: cs => digitsFrom 10 0 (c :: cs)

/-- An integer that may carry a minus sign (R92). -/
def readInt : List Char → Option Int
  | '-' :: cs => (readNat cs).map fun n => -(n : Int)
  | cs => (readNat cs).map fun n => (n : Int)

/-- The collected characters as one token, if there are any. -/
def tokenOf (acc : List Char) : List String :=
  if acc = [] then [] else [String.ofList acc]

/-- Tokens of a line: words between spaces, and each comma by itself. -/
def tokensFrom (acc : List Char) : List Char → List String
  | [] => tokenOf acc
  | c :: cs =>
    if c = ' ' then tokenOf acc ++ tokensFrom [] cs
    else if c = ',' then tokenOf acc ++ "," :: tokensFrom [] cs
    else tokensFrom (acc ++ [c]) cs

/-- The timer names (R92). -/
def timerNamed : String → Option TimerId
  | "SCAN" => some .scan
  | "DEB" => some .deb
  | "SMP" => some .smp
  | _ => none

/-- The commands written without an operand (R81, R92). -/
def readPlain : String → Option Instr
  | "KP.TICK" => some .kpTick
  | "KP.ROWADV" => some .kpRowadv
  | "KP.SAMPLE" => some .kpSample
  | "KP.DECODE" => some .kpDecode
  | "KP.CAPTURE" => some .kpCapture
  | "KP.RELEASE" => some .kpRelease
  | "KP.GETKEY" => some .kpGetkey
  | "KP.SETDZ" => some .kpSetdz
  | "KP.CLRDZ" => some .kpClrdz
  | "KP.ISDZ" => some .kpIsdz
  | "KP.ACK" => some .kpAck
  | "KP.STAT" => some .kpStat
  | "KP.EN" => some .kpEn
  | "KP.DIS" => some .kpDis
  | _ => none

/-- The commands written with one operand, a timer or a number (R81, R92). -/
def readOne (name operand : String) : Option Instr :=
  match name with
  | "TMR.CHECK" => (timerNamed operand).map Instr.tmrCheck
  | "TMR.ADVN" => (timerNamed operand).map Instr.tmrAdvn
  | "TMR.ADVP" => (timerNamed operand).map Instr.tmrAdvp
  | "TMR.EN" => (timerNamed operand).map Instr.tmrEn
  | "TMR.DIS" => (timerNamed operand).map Instr.tmrDis
  | "TMR.SETF" => (readNat operand.toList).map Instr.tmrSetf
  | "KP.INIT" => (readNat operand.toList).map Instr.kpInit
  | "KP.HIST" => (readNat operand.toList).map Instr.kpHist
  | "DAC.SET" => (readInt operand.toList).map Instr.dacSet
  | "DAC.TICK" => (readInt operand.toList).map Instr.dacTick
  | _ => none

/-- The commands written with a timer and a period (R81, R92). -/
def readTwo (name timer period : String) : Option Instr :=
  match timerNamed timer, readNat period.toList with
  | some t, some p =>
    match name with
    | "TMR.INIT" => some (Instr.tmrInit t p)
    | "TMR.SETP" => some (Instr.tmrSetp t p)
    | _ => none
  | _, _ => none

/-- The command a list of tokens spells. -/
def commandOf : List String → Option Instr
  | [name] => readPlain name
  | [name, operand] => readOne name operand
  | [name, timer, ",", period] => readTwo name timer period
  | _ => none

/-- The assembler: the text form of a command to its word (R92); none for text that spells no
command, or one whose operand does not fit its field (R82). -/
def assemble (line : String) : Option CommandWord :=
  match commandOf (tokensFrom [] line.toList) with
  | some i => if i.wellFormed then some (encode i) else none
  | none => none

/-- A trace line: what the host presents, and the response word it expects, if the line says one
(R92). -/
structure TraceLine where
  event : HostEvent
  expected : Option Response
  deriving DecidableEq, Repr

/-- The tokens of a command, and the expected response behind `->` (R92). -/
def splitArrow : List String → List String × Option String
  | [] => ([], none)
  | ["->", r] => ([], some r)
  | t :: ts => (t :: (splitArrow ts).1, (splitArrow ts).2)

/-- A number as a word of `w` bits; none for one that does not fit it. -/
def wordOf (w n : Nat) : Option (BitVec w) :=
  if n < 2 ^ w then some (BitVec.ofNat w n) else none

/-- The expected response behind `->`, where there is one. DESIGN CHOICE (log 12): text behind `->` that
is no number, or a number that is no 32-bit response word (R87), makes the line no trace line. -/
def expectedOf : Option String → Option (Option Response)
  | none => some none
  | some r => ((readNat r.toList).bind (wordOf 32)).map some

/-- A trace line once its clock value and columns are read. -/
def traceOf (now : Nat) (cols : Columns) (ts : List String) : Option TraceLine :=
  match commandOf (splitArrow ts).1, expectedOf (splitArrow ts).2 with
  | some i, some r =>
    if i.wellFormed then some { event := .command (encode i) now cols, expected := r } else none
  | _, _ => none

/-- The columns a token `cols=<col_in>` gives (R92). DESIGN CHOICE (log 12): a value above 15, which is no
`col_in` (10_state.md R22), gives none, and the line is then no trace line, since no command has that
token for its name. -/
def colsOf (t : String) : Option (BitVec 4) :=
  match t.toList with
  | 'c' :: 'o' :: 'l' :: 's' :: '=' :: v => (readNat v).bind (wordOf 4)
  | _ => none

/-- A trace line, `@<now> [cols=<col_in>] <command> [-> <resp>]` (R92). Left-out columns are given as
level 0: R92 lets them be left out where the command does not sample them (log 12). -/
def readTrace (line : String) : Option TraceLine :=
  match tokensFrom [] line.toList with
  | at_ :: t :: ts =>
    match at_.toList with
    | '@' :: v =>
      match readNat v, colsOf t with
      | some now, some c => traceOf now (.levels c) ts
      | some now, none => traceOf now (.levels 0) (t :: ts)
      | none, _ => none
    | _ => none
  | _ => none

end Sys2Proof.Machine
end

