-- ==== Sys2Proof/Tests/Slice0.lean ====
section
/-! SUPPORT. The model's own tests. Expected values come from spec/95_test_vectors.md (the tables are
named), never from the model; and one witness theorem for the hypotheses of each statement. -/

open Sys2Proof Sys2Proof.Machine

namespace Sys2Proof.Tests

/-! ### WellFormed smoke: an ill-formed term for each check (R82) -/

theorem test_ill_formed_unsigned :
    (Instr.tmrInitScan 4294967296).wellFormed = false ∧
    (Instr.tmrSetpScan 4294967296).wellFormed = false ∧
    (Instr.tmrInitDeb 4294967296).wellFormed = false ∧
    (Instr.tmrSetpDeb 4294967296).wellFormed = false ∧
    (Instr.tmrInitSmp 4294967296).wellFormed = false ∧
    (Instr.tmrSetpSmp 4294967296).wellFormed = false ∧
    (Instr.tmrSetf 4294967296).wellFormed = false ∧
    (Instr.kpInit 4294967296).wellFormed = false ∧
    (Instr.kpHist 4294967296).wellFormed = false := by decide

theorem test_ill_formed_signed :
    (Instr.dacSet 2147483648).wellFormed = false ∧
    (Instr.dacSet (-2147483649)).wellFormed = false ∧
    (Instr.dacTick 2147483648).wellFormed = false ∧
    (Instr.dacTick (-2147483649)).wellFormed = false := by decide

/-! ### Decoding (table B1; the opcode bytes of R81 for the rows B1 leaves out) -/

theorem test_decode_scan :
    decodeTableWord 40 0x00000007D0 = some (.tmrInitScan 2000) ∧
    decodeTableWord 40 0x0100000000 = some .tmrCheckScan ∧
    decodeTableWord 40 0x0200000000 = some .tmrAdvnScan ∧
    decodeTableWord 40 0x0300000000 = some .tmrAdvpScan ∧
    decodeTableWord 40 0x04000003E8 = some (.tmrSetpScan 1000) ∧
    decodeTableWord 40 0x0500000000 = some .tmrEnScan ∧
    decodeTableWord 40 0x0600000000 = some .tmrDisScan := by decide

theorem test_decode_deb :
    decodeTableWord 40 0x100000C350 = some (.tmrInitDeb 50000) ∧
    decodeTableWord 40 0x1100000000 = some .tmrCheckDeb ∧
    decodeTableWord 40 0x1200000000 = some .tmrAdvnDeb ∧
    decodeTableWord 40 0x1300000000 = some .tmrAdvpDeb ∧
    decodeTableWord 40 0x14FFFFFFFF = some (.tmrSetpDeb 4294967295) ∧
    decodeTableWord 40 0x1500000000 = some .tmrEnDeb ∧
    decodeTableWord 40 0x1600000000 = some .tmrDisDeb := by decide

theorem test_decode_smp :
    decodeTableWord 40 0x200000F424 = some (.tmrInitSmp 62500) ∧
    decodeTableWord 40 0x2100000000 = some .tmrCheckSmp ∧
    decodeTableWord 40 0x2200000000 = some .tmrAdvnSmp ∧
    decodeTableWord 40 0x2300000000 = some .tmrAdvpSmp ∧
    decodeTableWord 40 0x24000003E8 = some (.tmrSetpSmp 1000) ∧
    decodeTableWord 40 0x2500000000 = some .tmrEnSmp ∧
    decodeTableWord 40 0x2600000000 = some .tmrDisSmp ∧
    decodeTableWord 40 0x27000003E8 = some (.tmrSetf 1000) := by decide

theorem test_decode_keypad_low :
    decodeTableWord 40 0x400000C350 = some (.kpInit 50000) ∧
    decodeTableWord 40 0x4100000000 = some .kpTick ∧
    decodeTableWord 40 0x42FFFFFFFF = some .kpRowadv ∧
    decodeTableWord 40 0x4300000000 = some .kpSample ∧
    decodeTableWord 40 0x4400000000 = some .kpDecode ∧
    decodeTableWord 40 0x4500000000 = some .kpCapture ∧
    decodeTableWord 40 0x4600000000 = some .kpRelease ∧
    decodeTableWord 40 0x4700000000 = some .kpGetkey := by decide

theorem test_decode_keypad_high :
    decodeTableWord 40 0x4800000000 = some .kpSetdz ∧
    decodeTableWord 40 0x4900000000 = some .kpClrdz ∧
    decodeTableWord 40 0x4A00000000 = some .kpIsdz ∧
    decodeTableWord 40 0x4B00000000 = some .kpAck ∧
    decodeTableWord 40 0x4C00000000 = some .kpStat ∧
    decodeTableWord 40 0x4D00000009 = some (.kpHist 9) ∧
    decodeTableWord 40 0x4E00000000 = some .kpEn ∧
    decodeTableWord 40 0x4F00000000 = some .kpDis := by decide

theorem test_decode_dac :
    decodeTableWord 40 0x8000001130 = some (.dacSet 4400) ∧
    decodeTableWord 40 0x80FFFFFED4 = some (.dacSet (-300)) ∧
    decodeTableWord 40 0x81000003E8 = some (.dacTick 1000) ∧
    decodeTableWord 40 0x81FFFFFC18 = some (.dacTick (-1000)) := by decide

theorem test_decode_reserved :
    decodeTableWord 40 0x0700000000 = none ∧ decodeTableWord 40 0x1700000000 = none ∧
    decodeTableWord 40 0x28DEADBEEF = none ∧ decodeTableWord 40 0x3000000000 = none ∧
    decodeTableWord 40 0x5000000001 = none ∧ decodeTableWord 40 0x82000003E8 = none ∧
    decodeTableWord 40 0x9000000000 = none ∧ decodeTableWord 40 0xFFFFFFFFFF = none := by decide

theorem test_encode :
    encode (.tmrSetpDeb 4294967295) = 0x14FFFFFFFF#40 ∧
    encode .kpRowadv = 0x4200000000#40 ∧
    encode (.dacTick (-1000)) = 0x81FFFFFC18#40 := by decide

/-! ### A small state: the reset state with `KEYMAP_REF`, and a DAC code that is set -/

/-- The parameters of the vectors: the defaults and `KEYMAP_REF`. -/
def refParams : Params := { clkW := 32, scanPeriodUs := 2000, nSamples := 16, keymap := Config.keymapRef }

/-- The reset state of the vectors, with the DAC code 135 of table B4.2. -/
def ref : State := { State.resetWith refParams 0 with dacCode := 135, dacLines := 135 }

/-- A timer record as the vectors write it. -/
def timer (d p : Nat) (e : Bool) : Timer := { nextDeadline := d, period := p, enabled := e }

/-- `ref` at a clock value. -/
def at_ (now : Nat) (s : State) : State := { s with now := now }

/-- A keypad in operation, after `KP.INIT 50000` at 0, on row 3 (P1, after step 4). -/
def onRow3 : State :=
  { ref with
    kpEnabled := true, rowCounter := 3, rowPattern := 8, rowLines := 8
    scan := timer 2000 2000 true, deb := timer 50000 50000 true }

/-- The same inside the debounce window that P1's step 6 opens, with column 2 sampled (step 8). -/
def inWindow : State :=
  { onRow3 with
    capturedColumns := 4, rawCode := 0x28, decodedKey := 5
    hist := #v[5, 31, 31, 31, 31, 31, 31, 31, 31, 31]
    keyPendingFlag := true, debounceActive := true, deb := timer 50100 50000 true }

/-- What a command leaves in a field, if it answers a next state. -/
def left {α : Type} (f : State → α) : Result → Option α
  | .next s => some (f s)
  | .fault _ => none
  | .refused _ => none

/-- Response, raw code, key, first history entry, pending flag and lock-out. -/
def keys (s : State) : List Nat :=
  [s.resp.toNat, s.rawCode.toNat, s.decodedKey.toNat, s.hist[0].toNat, s.keyPendingFlag.toNat,
    s.debounceActive.toNat]

/-! ### Timers (table B2.1, B2.3, B2.4) -/

theorem test_tmrInit_clamps_zero :
    left State.scan (exec (.tmrInitScan 0) (at_ 1000 ref)) = some (timer 1001 1 true) := by decide

theorem test_tmrInit_wraps :
    left State.scan (exec (.tmrInitScan 0x200) (at_ 0xFFFFFF00 ref))
      = some (timer 0x100 0x200 true) := by decide

theorem test_tmrInit_clamps_top :
    left State.deb (exec (.tmrInitDeb 0x80000000) (at_ 1000 ref))
      = some (timer 0x800003E7 0x7FFFFFFF true) := by decide

theorem test_tmrInit_smp :
    left State.smp (exec (.tmrInitSmp 62500) (at_ 1000 ref)) = some (timer 63500 62500 true) := by
  decide

theorem test_tmrCheck_past_wrap :
    left State.resp (exec .tmrCheckScan (at_ 0xFFFFFFFF { ref with scan := timer 0x100 0x200 true }))
      = some 0 ∧
    left State.resp (exec .tmrCheckScan (at_ 0x100 { ref with scan := timer 0x100 0x200 true }))
      = some 1 := by decide

theorem test_tmrCheck_horizon :
    left State.resp
      (exec .tmrCheckScan (at_ 0x800002FF { ref with scan := timer 0x300 0x200 true })) = some 1 ∧
    left State.resp
      (exec .tmrCheckScan (at_ 0x80000300 { ref with scan := timer 0x300 0x200 true })) = some 0 := by
  decide

theorem test_tmrCheck_smp :
    left State.resp (exec .tmrCheckSmp (at_ 63499 { ref with smp := timer 63500 62500 true }))
      = some 0 ∧
    left State.resp (exec .tmrCheckSmp (at_ 63500 { ref with smp := timer 63500 62500 true }))
      = some 1 ∧
    left State.resp (exec .tmrCheckSmp (at_ 99999 { ref with smp := timer 63500 62500 false }))
      = some 0 := by decide

theorem test_tmrCheck_deb :
    left State.resp (exec .tmrCheckDeb (at_ 60001 { ref with deb := timer 54000 50000 true }))
      = some 1 := by decide

theorem test_tmrAdvn_wraps :
    left State.scan
      (exec .tmrAdvnScan (at_ 0x80000305 { ref with scan := timer 0x502 0x7FFFFFFF true }))
      = some (timer 0x304 0x7FFFFFFF true) := by decide

theorem test_tmrAdvn_ungated :
    left State.deb (exec .tmrAdvnDeb (at_ 4000 { ref with deb := timer 50000 50000 false }))
      = some (timer 54000 50000 false) := by decide

theorem test_tmrAdvn_smp :
    left State.smp (exec .tmrAdvnSmp (at_ 4000 { ref with smp := timer 50000 50000 true }))
      = some (timer 54000 50000 true) := by decide

theorem test_tmrAdvp_ignores_now :
    left State.scan (exec .tmrAdvpScan (at_ 2347 { ref with scan := timer 2000 2000 true }))
      = some (timer 4000 2000 true) ∧
    left State.scan (exec .tmrAdvpScan (at_ 100 { ref with scan := timer 2000 2000 true }))
      = some (timer 4000 2000 true) := by decide

theorem test_tmrAdvp_wraps :
    left State.smp (exec .tmrAdvpSmp (at_ 5 { ref with smp := timer 0xFFFFFF00 0x200 true }))
      = some (timer 0x100 0x200 true) := by decide

theorem test_tmrAdvp_deb :
    left State.deb (exec .tmrAdvpDeb (at_ 5 { ref with deb := timer 0xFFFFFF00 0x200 true }))
      = some (timer 0x100 0x200 true) := by decide

theorem test_tmrSetp_keeps_deadline :
    left State.scan (exec (.tmrSetpScan 1000) (at_ 2500 { ref with scan := timer 4000 2000 true }))
      = some (timer 4000 1000 true) ∧
    left State.scan (exec (.tmrSetpScan 0) (at_ 1 { ref with scan := timer 4000 2000 true }))
      = some (timer 4000 1 true) := by decide

theorem test_tmrSetp_clamps_top :
    left State.deb (exec (.tmrSetpDeb 0xFFFFFFFF) { ref with deb := timer 4000 2000 true })
      = some (timer 4000 0x7FFFFFFF true) ∧
    left State.smp (exec (.tmrSetpSmp 0xFFFFFFFF) { ref with smp := timer 4000 2000 true })
      = some (timer 4000 0x7FFFFFFF true) := by decide

theorem test_tmrEn :
    left State.scan (exec .tmrEnScan (at_ 5008 ref)) = some (timer 0 1 true) ∧
    left State.deb (exec .tmrEnDeb (at_ 60000 { ref with deb := timer 54000 50000 false }))
      = some (timer 54000 50000 true) ∧
    left State.smp (exec .tmrEnSmp (at_ 9020 { ref with smp := timer 3874 62 false }))
      = some (timer 3874 62 true) := by decide

theorem test_tmrDis :
    left State.scan (exec .tmrDisScan (at_ 3000 { ref with scan := timer 4000 2000 true }))
      = some (timer 4000 2000 false) ∧
    left State.deb (exec .tmrDisDeb (at_ 1000 { ref with deb := timer 50300 50000 true }))
      = some (timer 50300 50000 false) ∧
    left State.smp (exec .tmrDisSmp (at_ 3900 { ref with smp := timer 3874 62 true }))
      = some (timer 3874 62 false) := by decide

theorem test_tmrSetf_floors :
    left State.smp (exec (.tmrSetf 3) { ref with smp := timer 777 777 true })
      = some (timer 777 20833 true) ∧
    left State.smp (exec (.tmrSetf 62499) { ref with smp := timer 777 777 true })
      = some (timer 777 1 true) := by decide +kernel

theorem test_tmrSetf_corners :
    left State.smp (exec (.tmrSetf 0) { ref with smp := timer 777 777 true })
      = some (timer 777 777 true) ∧
    left State.smp (exec (.tmrSetf 4294967295) { ref with smp := timer 777 777 true })
      = some (timer 777 1 true) := by decide +kernel

/-- Table B2.4: a clock of 18 bits. -/
theorem test_clock_of_18_bits :
    let s := { ref with params := { refParams with clkW := 18 } }
    left State.scan (exec (.tmrInitScan 2000) (at_ 262000 s)) = some (timer 1856 2000 true) ∧
    left State.resp (exec .tmrCheckScan (at_ 132927 { s with scan := timer 1856 2000 true }))
      = some 1 ∧
    left State.resp (exec .tmrCheckScan (at_ 132928 { s with scan := timer 1856 2000 true }))
      = some 0 ∧
    left (fun u => u.deb.period) (exec (.kpInit 200000) s) = some 131071 := by decide

/-! ### Keypad (table B3, programs P1, P2, P5, P8) -/

theorem test_kpInit_timers :
    left (fun u => (u.scan, u.deb, u.smp)) (exec (.kpInit 0) (at_ 7 ref))
      = some (timer 2007 2000 true, timer 8 1 true, timer 0 1 false) := by decide

theorem test_kpInit_clears :
    left statusWord (exec (.kpInit 20000) (at_ 900000 { inWindow with doubleZeroFlag := true }))
      = some 0x0402001F ∧
    left (fun u => u.hist[0]) (exec (.kpInit 20000) (at_ 900000 inWindow)) = some 0x1F := by decide

/-- P2 at 4000: row 2 is reached and its key is captured in one tick. -/
theorem test_kpTick_captures :
    let s := { ref with
      kpEnabled := true, rowCounter := 1, rowPattern := 2, rowLines := 2, rawCode := 2
      scan := timer 4000 2000 true, deb := timer 50000 50000 true, now := 4000
      cols := .matrix #v[0, 0, 2, 0] }
    left keys (exec .kpTick s) = some [0, 0x24, 1, 1, 1, 1] ∧
    left State.scan (exec .kpTick s) = some (timer 6000 2000 true) ∧
    left statusWord (exec .kpTick s) = some 0x05C84481 := by decide

/-- P2 at 54000: the scan comes first and the release erases its raw code. -/
theorem test_kpTick_releases_last :
    let s := { ref with
      kpEnabled := true, rowCounter := 2, rowPattern := 4, rowLines := 4, capturedColumns := 2
      rawCode := 0x24, decodedKey := 1, keyPendingFlag := true, debounceActive := true
      scan := timer 54000 2000 true, deb := timer 54000 50000 true, now := 54000
      cols := .matrix #v[0, 0, 2, 0] }
    left statusWord (exec .kpTick s) = some 0x0570001F := by decide

theorem test_kpRowadv :
    left (fun u => (u.rowCounter, u.rowPattern, u.rowLines)) (exec .kpRowadv onRow3)
      = some (0, 1, 1) ∧
    left (fun u => (u.rowCounter, u.rowPattern, u.rowLines))
      (exec .kpRowadv { onRow3 with rowCounter := 1, rowPattern := 2, rowLines := 2 })
      = some (2, 4, 4) := by decide

theorem test_kpSample :
    left (fun u => (u.capturedColumns, u.rawCode))
      (exec .kpSample { onRow3 with cols := .levels 0xA }) = some (0xA, 0) ∧
    left (fun u => u.capturedColumns)
      (exec .kpSample { onRow3 with cols := .matrix #v[1, 2, 4, 8] }) = some 8 := by decide

theorem test_kpDecode :
    left statusWord (exec .kpDecode { onRow3 with capturedColumns := 2 }) = some 0x04704505 ∧
    left keys (exec .kpDecode { onRow3 with capturedColumns := 6, decodedKey := 14 })
      = some [0, 0x68, 14, 0x1F, 0, 0] := by decide

theorem test_kpCapture_pushes :
    left keys (exec .kpCapture (at_ 100 { onRow3 with capturedColumns := 2 }))
      = some [0, 0x28, 5, 5, 1, 1] ∧
    left State.deb (exec .kpCapture (at_ 100 { onRow3 with capturedColumns := 2 }))
      = some (timer 50100 50000 true) := by decide

theorem test_kpCapture_suppressed :
    left keys (exec .kpCapture (at_ 10000 inWindow)) = some [0, 0x48, 6, 5, 1, 1] ∧
    left State.deb (exec .kpCapture (at_ 10000 inWindow)) = some (timer 50100 50000 true) := by
  decide

theorem test_kpRelease :
    left keys (exec .kpRelease (at_ 50099 inWindow)) = some [0, 0x28, 5, 5, 1, 1] ∧
    left keys (exec .kpRelease (at_ 50100 inWindow)) = some [0, 0, 0x1F, 5, 1, 0] := by decide

theorem test_kpGetkey :
    left (fun u => (u.resp, u.keyPendingFlag)) (exec .kpGetkey inWindow) = some (5, true) ∧
    left State.resp (exec .kpGetkey ref) = some 0x1F := by decide

theorem test_kpHist :
    left State.resp (exec (.kpHist 0) inWindow) = some 5 ∧
    left State.resp (exec (.kpHist 9) inWindow) = some 0x1F ∧
    left State.resp (exec (.kpHist 10) { inWindow with hist := Vector.replicate 10 3 })
      = some 0x1F ∧
    left State.resp (exec (.kpHist 4294967295) inWindow) = some 0x1F := by decide

theorem test_kp_double_zero :
    left State.doubleZeroFlag (exec .kpSetdz onRow3) = some true ∧
    left State.doubleZeroFlag (exec .kpClrdz { onRow3 with doubleZeroFlag := true }) = some false ∧
    left State.doubleZeroFlag (exec .kpClrdz { ref with doubleZeroFlag := true }) = some true ∧
    left State.resp (exec .kpIsdz { ref with doubleZeroFlag := true }) = some 1 := by decide

theorem test_kpAck :
    left (fun u => (u.keyPendingFlag, u.hist[0])) (exec .kpAck inWindow) = some (false, 5) ∧
    left State.keyPendingFlag (exec .kpAck { inWindow with kpEnabled := false }) = some true := by
  decide

theorem test_kpStat :
    left State.resp (exec .kpStat ref) = some 0x0002001F ∧
    left State.resp (exec .kpStat { inWindow with rawCode := 0x48, decodedKey := 6 })
      = some 0x05F08906 := by decide

theorem test_kp_enable :
    left State.kpEnabled (exec .kpEn ref) = some true ∧
    left State.kpEnabled (exec .kpDis onRow3) = some false := by decide

/-- P8 step 4: a tick of a disabled keypad leaves the scan timer alone too. -/
theorem test_kpTick_disabled :
    left (fun u => (u.scan, u.rowCounter))
      (exec .kpTick (at_ 2000 { onRow3 with kpEnabled := false }))
      = some (timer 2000 2000 true, 3) := by decide

/-! ### DAC stage (tables B4.1, B4.2) -/

theorem test_quantiser :
    (quant (-2147483648), quant (-4964), quant (-4963), quant (-300), quant (-282))
      = (0, 0, 1, 127, 127) ∧
    (quant (-281), quant 0, quant 13, quant 14, quant 4363)
      = (128, 135, 135, 136, 253) ∧
    (quant 4364, quant 4399, quant 4400, quant 4401, quant 2147483647)
      = (254, 254, 255, 255, 255) := by decide

theorem test_dacSet :
    left (fun u => (u.dacCode, u.dacLines, u.resp)) (exec (.dacSet (-2500)) ref)
      = some (67, 0b01000011, 0) := by decide

theorem test_dacTick_holds :
    left (fun u => (u.resp, u.dacCode, u.smp))
      (exec (.dacTick 1000) (at_ 624 { ref with smp := timer 625 625 true }))
      = some (0, 135, timer 625 625 true) ∧
    left (fun u => (u.resp, u.dacCode))
      (exec (.dacTick 4400) (at_ 9000 { ref with smp := timer 625 625 false }))
      = some (0, 135) := by decide

theorem test_dacTick_samples :
    left (fun u => (u.resp, u.dacCode, u.dacLines, u.smp))
      (exec (.dacTick 1000) (at_ 700 { ref with smp := timer 625 625 true }))
      = some (1, 162, 162, timer 1250 625 true) := by decide

/-! ### The step, the text form, the pseudo-operations, the boot order -/

/-- B1: a reserved opcode byte changes nothing and answers 0. -/
theorem test_step_reserved :
    left (fun u => (u.resp, u.dacCode, u.scan))
      (step { inWindow with resp := 7, host := [.command 0x82000003E8#40 777 (.levels 15)] })
      = some (0, 135, timer 2000 2000 true) := by decide

/-- P7: the first instruction after reset, placed by `withFetchWord`. -/
theorem test_step_after_reset :
    left State.resp (step (State.reset.withFetchWord 40 0x4C00000000)) = some 0x0002001F := by decide

/-- R92's own lines. -/
theorem test_assembler :
    assemble "TMR.INIT SMP, 62500" = some 0x200000F424#40 ∧
    assemble "TMR.INIT SMP, 0xF424" = some 0x200000F424#40 ∧
    assemble "KP.TICK" = some 0x4100000000#40 ∧
    assemble "DAC.SET -300" = some 0x80FFFFFED4#40 ∧
    assemble "DAC.SET 2147483648" = none ∧ assemble "KP.TOCK" = none := by decide

theorem test_trace_line :
    readTrace "@4000 cols=0x2 KP.TICK -> 0" =
      some { event := .command 0x4100000000#40 4000 (.levels 2), expected := some 0 } ∧
    readTrace "@1000 TMR.INIT SMP, 62500" =
      some { event := .command 0x200000F424#40 1000 (.levels 0), expected := none } := by decide

/-- No trace line: columns that are no `col_in` (R22), and text that is no response (log 12). -/
theorem test_trace_refused :
    readTrace "@4000 cols=0x12 KP.TICK -> 0" = none ∧ readTrace "@4000 KP.STAT -> no" = none ∧
    readTrace "@4000 KP.STAT -> 4294967296" = none := by decide

/-- Table B2.2: a poll at a late clock value fires, and its second command is `TMR.ADVP`. -/
theorem test_pseudo_poll :
    left State.resp
      (execAll (pseudoFirst (.tmrPollp .scan)) (at_ 10000 { ref with scan := timer 2000 2000 true }))
      = some 1 ∧
    pseudoThen 1 (.tmrPollp .scan) = [.tmrAdvpScan] ∧ pseudoThen 0 (.tmrPolln .deb) = [] := by decide

/-- R192: the keypad before other keypad commands, the sample timer before a DAC tick. -/
theorem test_boot_order :
    bootOrder refParams .none
      [.command (encode (.kpInit 50000)) 0 (.levels 0), .command (encode .kpTick) 1 (.levels 0),
       .command (encode (.tmrInitSmp 625)) 2 (.levels 0),
       .command (encode (.dacTick 5)) 3 (.levels 0)] = true ∧
    bootOrder refParams .none [.command (encode .kpTick) 1 (.levels 0)] = false ∧
    bootOrder refParams .none [.command (encode (.dacTick 5)) 1 (.levels 0)] = false := by decide

/-! ### Witnesses: each statement's hypotheses are met, clause by clause -/

/-- A keypad in operation is a sound state. -/
theorem inv_onRow3 : onRow3.Inv :=
  { params := by decide, now := by decide, scan := by decide, deb := by decide, smp := by decide
    rowPattern := by decide, rowLines := by decide, decodedKey := by decide, hist := by decide
    rawCode := by decide, dacLines := by decide, lineCfg := by decide }

/-- So is one inside a debounce window. -/
theorem inv_inWindow : inWindow.Inv :=
  { params := by decide, now := by decide, scan := by decide, deb := by decide, smp := by decide
    rowPattern := by decide, rowLines := by decide, decodedKey := by decide, hist := by decide
    rawCode := by decide, dacLines := by decide, lineCfg := by decide }

theorem witness_DecodeOfEncodeIsIdentity :
    (Instr.tmrInitScan 0).wellFormed = true ∧ (Instr.kpHist 4294967295).wellFormed = true ∧
    (Instr.dacSet (-2147483648)).wellFormed = true ∧
    (Instr.dacTick 2147483647).wellFormed = true := by decide

theorem witness_DecodedCommandsAreWellFormed :
    decode 0x4DFFFFFFFF#40 = .ok (.kpHist 4294967295) ∧ decode 0x42FFFFFFFF#40 = .ok .kpRowadv :=
  ⟨rfl, rfl⟩

theorem witness_ReservedOpcodesAreIgnored :
    decode 0x0700000000#40 = .error (.reservedOpcode 0x07) ∧
    decode 0x28DEADBEEF#40 = .error (.reservedOpcode 0x28) ∧
    decode 0x3000000000#40 = .error (.reservedOpcode 0x30) ∧
    decode 0x8200000000#40 = .error (.reservedOpcode 0x82) := ⟨rfl, rfl, rfl, rfl⟩

theorem witness_StepRunsDecodedCommand :
    ({ ref with host := [.command 0x4100000000#40 4000 (.levels 2)] } : State).host =
      .command 0x4100000000#40 4000 (.levels 2) :: [] ∧
    decode 0x4100000000#40 = .ok .kpTick ∧
    decode 0x82000003E8#40 = .error (.reservedOpcode 0x82) := ⟨rfl, rfl, rfl⟩

theorem witness_IdleStepHoldsState :
    ref.host = [] ∧ ({ ref with host := [.idle, .reset] } : State).host = .idle :: [.reset] :=
  ⟨rfl, rfl⟩

theorem witness_HardwareResetRestoresResetValues :
    ∃ (s : State) (rest : List HostEvent), s.host = .reset :: rest :=
  ⟨{ inWindow with host := [.reset, .idle] }, [.idle], rfl⟩

theorem witness_EveryStepKeepsTheInvariant : ∃ s u : State, s.Inv ∧ step s = .next u :=
  ⟨onRow3, _, inv_onRow3, rfl⟩

theorem witness_NoCommandWritesInputs : ∃ (i : Instr) (s u : State), exec i s = .next u :=
  ⟨.kpCapture, { onRow3 with capturedColumns := 2 }, _, rfl⟩

theorem witness_WrittenPeriodsAreLegal :
    ref.params.LegalClock ∧ (∃ u, exec (Instr.tmrInit .scan 0) ref = .next u) ∧
    (∃ u, exec (Instr.tmrSetp .deb 1) ref = .next u) ∧
    (∃ u, exec (.kpInit 2147483647) ref = .next u) ∧
    (1 ≤ ref.params.scanPeriodUs ∧ ref.params.scanPeriodUs ≤ 2 ^ ref.params.clkW / 2 - 1) ∧
    (∃ u, exec (Instr.tmrSetp .smp 2147483648) ref = .next u) ∧
    (2147483647 : Nat) = 2 ^ ref.params.clkW / 2 - 1 ∧
    ∃ u, exec (.tmrSetf 4294967295) ref = .next u :=
  ⟨by decide, ⟨_, rfl⟩, ⟨_, rfl⟩, ⟨_, rfl⟩, by decide, ⟨_, rfl⟩, by decide, ⟨_, rfl⟩⟩

/-- The clauses at their boundaries: one microsecond short, the deadline, the end of the window. -/
theorem witness_CheckAfterCreation :
    ∃ s1 : State, ref.params.LegalClock ∧ exec (Instr.tmrInit .smp 5) ref = .next s1 ∧
      ∀ e ∈ [4, 5, 5 + 2147483647], ∃ u : State, u.params = ref.params ∧
        timerOf u .smp = timerOf s1 .smp ∧ u.now = (ref.now + e) % 2 ^ ref.params.clkW :=
  ⟨_, by decide, rfl, fun e _ =>
    ⟨{ ref with smp := timer 5 5 true, now := (ref.now + e) % 2 ^ ref.params.clkW }, rfl, rfl, rfl⟩⟩

theorem witness_ExpiryWindowIsHalfTheModulus :
    ∃ (t : TimerId) (n0 p e : Nat) (s : State),
      s.params.LegalClock ∧ p ≤ 2 ^ s.params.clkW / 2 - 1 ∧ (timerOf s t).enabled = true ∧
      (timerOf s t).nextDeadline = (n0 + p) % 2 ^ s.params.clkW ∧
      s.now = (n0 + e) % 2 ^ s.params.clkW ∧ e < p + 2 ^ s.params.clkW :=
  ⟨.scan, 0xFFFFFF00, 0x200, 0x300, at_ 0x200 { ref with scan := timer 0x100 0x200 true },
    by decide⟩

theorem witness_AdvanceByPeriodNeverDrifts :
    ∃ (at_ : List (Nat × Columns)) (s : State), at_.length = 2 ∧
      (timerOf s .scan).nextDeadline < 2 ^ s.params.clkW ∧
      s.host = at_.map (fun a => HostEvent.command (encode (Instr.tmrAdvp .scan)) a.1 a.2) :=
  ⟨[(2347, .levels 0), (9999, .levels 3)],
    { onRow3 with host := [.command (encode .tmrAdvpScan) 2347 (.levels 0),
                           .command (encode .tmrAdvpScan) 9999 (.levels 3)] },
    rfl, by decide, rfl⟩

/-- One command for each of the three clauses. -/
theorem witness_TimerFieldsHaveTheirWriters :
    (∃ u, exec (.tmrSetf 100) ref = .next u ∧
      (timerOf u .smp).period ≠ (timerOf ref .smp).period) ∧
    (∃ u, exec .kpTick { onRow3 with now := 2000 } = .next u ∧
      (timerOf u .scan).nextDeadline ≠ 2000) ∧
    (∃ u, exec .tmrEnDeb ref = .next u ∧
      (timerOf u .deb).enabled ≠ (timerOf ref .deb).enabled) :=
  ⟨⟨_, rfl, by decide +kernel⟩, ⟨_, rfl, by decide⟩, ⟨_, rfl, by decide⟩⟩

/-- P3 step 8: 2575 microseconds late, 625 apart; and on time. -/
theorem witness_LateSampleTimerCatchesUp :
    ∃ s : State, s.params.LegalClock ∧ Timer.Legal s.params s.smp ∧ s.smp.enabled = true ∧
      s.now = (s.smp.nextDeadline + 2575) % 2 ^ s.params.clkW ∧ 2575 < 2 ^ s.params.clkW / 2 ∧
      2575 / s.smp.period + 1 = 5 :=
  ⟨at_ 3200 { ref with smp := timer 625 625 true }, by decide⟩

theorem witness_DisabledKeypadChangesNothing :
    Instr.kpTick ∈ gatedCommands ∧ Instr.kpAck ∈ gatedCommands ∧ ref.kpEnabled = false := by decide

theorem witness_KpRowadvDrivesNextRow : onRow3.kpEnabled = true ∧ ref.kpEnabled = false := by decide

theorem witness_FourRowAdvancesComeBack :
    onRow3.kpEnabled = true ∧ onRow3.rowPattern = (1 : BitVec 4) <<< onRow3.rowCounter.toNat ∧
    onRow3.rowLines = onRow3.rowPattern ∧ ∃ u, exec .kpRowadv onRow3 = .next u :=
  ⟨by decide, by decide, by decide, _, rfl⟩

theorem witness_KpSampleTakesColumnLevels :
    ref.kpEnabled = false ∧ ∃ (s : State) (v : BitVec 4), s.kpEnabled = true ∧ s.cols = .levels v :=
  ⟨rfl, { onRow3 with cols := .levels 0xA }, 0xA, rfl, rfl⟩

theorem witness_MatrixSampleReadsDrivenRow :
    ∃ (s : State) (m : Vector (BitVec 4) 4), s.kpEnabled = true ∧ s.cols = .matrix m ∧
      s.rowPattern = (1 : BitVec 4) <<< s.rowCounter.toNat ∧ s.rowLines = s.rowPattern :=
  ⟨{ onRow3 with cols := .matrix #v[1, 2, 4, 8] }, #v[1, 2, 4, 8], rfl, rfl, by decide, rfl⟩

/-- Both clauses: one column asserted, and two. -/
theorem witness_KpDecodeFormsRawCodeAndKey :
    ref.kpEnabled = false ∧ onRow3.kpEnabled = true ∧
    onRow3.rowPattern = 1#4 <<< (3 : Fin 4).val ∧ (2 : BitVec 4) = 1#4 <<< (1 : Fin 4).val ∧ ¬ ∃ c : Fin 4, (6 : BitVec 4) = 1#4 <<< c.val := by
  decide

/-- The push (one row and one column), and the decode alone (the lock-out; no column; several). -/
theorem witness_KpCaptureDecodesThenPushes :
    (∃ (s : State) (r c : Fin 4), s.kpEnabled = true ∧ s.debounceActive = false ∧
      s.rowPattern = 1#4 <<< r.val ∧ s.capturedColumns = 1#4 <<< c.val) ∧
    ref.kpEnabled = false ∧ (inWindow.kpEnabled = true ∧ inWindow.debounceActive = true) ∧
    onRow3.kpEnabled = true ∧
    (¬ ∃ r c : Fin 4, onRow3.rowPattern = 1#4 <<< r.val ∧
      onRow3.capturedColumns = 1#4 <<< c.val) ∧
    ¬ ∃ r c : Fin 4, onRow3.rowPattern = 1#4 <<< r.val ∧ (6 : BitVec 4) = 1#4 <<< c.val :=
  ⟨⟨{ onRow3 with capturedColumns := 2 }, 3, 1, by decide⟩, by decide⟩

/-- At the deadline of the window, and one microsecond before it. -/
theorem witness_KpReleaseOpensAfterExpiry :
    inWindow.kpEnabled = true ∧ inWindow.debounceActive = true ∧ inWindow.deb.enabled = true ∧
    ((50100 : Int) - inWindow.deb.nextDeadline) % ((2 ^ inWindow.params.clkW : Nat) : Int)
      < ((2 ^ inWindow.params.clkW / 2 : Nat) : Int) ∧
    ¬ ((50099 : Int) - inWindow.deb.nextDeadline) % ((2 ^ inWindow.params.clkW : Nat) : Int)
      < ((2 ^ inWindow.params.clkW / 2 : Nat) : Int) := by decide

theorem witness_KpTickIsItsPhasesInOrder :
    ref.kpEnabled = false ∧ onRow3.kpEnabled = true ∧ check (at_ 2000 onRow3) .scan = true ∧
    check (at_ 1999 onRow3) .scan = false := by decide

/-- A sound state with the lock-out set, and one with it clear. -/
theorem witness_TickNeverCapturesAndReleases :
    (∃ u, inWindow.Inv ∧ exec .kpTick inWindow = .next u ∧ inWindow.debounceActive = true) ∧
    ∃ u, onRow3.Inv ∧ exec .kpTick onRow3 = .next u ∧ onRow3.debounceActive = false :=
  ⟨⟨_, inv_inWindow, rfl, rfl⟩, _, inv_onRow3, rfl, rfl⟩

theorem witness_KpScanIsTickWithoutTheTimer :
    ∃ s : State, s.kpEnabled = true ∧ check s .scan = true := ⟨at_ 2000 onRow3, by decide⟩

theorem witness_KeypadReadsAnswerAndWriteNothing :
    (∃ i : Fin 10, i.val = 9) ∧ ∃ i : Nat, i = 10 ∧ 10 ≤ i := ⟨⟨9, rfl⟩, 10, rfl, le_refl 10⟩

theorem witness_FlagCommandsWriteTheirFlag :
    onRow3.kpEnabled = true ∧ ref.kpEnabled = false := by decide

/-- A push and an emptying. -/
theorem witness_HistoryIsPushedOrEmptied :
    (∃ u, exec .kpCapture { onRow3 with capturedColumns := 2 } = .next u ∧
      u.hist ≠ onRow3.hist) ∧
    ∃ u, exec (.kpInit 5) inWindow = .next u ∧ u.hist ≠ inWindow.hist :=
  ⟨⟨_, rfl, by decide⟩, _, rfl, by decide⟩

theorem witness_DoubleZeroFlagIsHostOwned :
    (∃ u, exec .kpSetdz onRow3 = .next u ∧ u.doubleZeroFlag ≠ onRow3.doubleZeroFlag) ∧
    ∃ u, exec .kpClrdz { onRow3 with doubleZeroFlag := true } = .next u ∧
      u.doubleZeroFlag ≠ true :=
  ⟨⟨_, rfl, by decide⟩, _, rfl, by decide⟩

theorem witness_PendingFlagHasItsWriters :
    (∃ u, exec .kpCapture { onRow3 with capturedColumns := 2 } = .next u ∧
      u.keyPendingFlag ≠ onRow3.keyPendingFlag) ∧
    ∃ u, exec .kpAck inWindow = .next u ∧ u.keyPendingFlag ≠ inWindow.keyPendingFlag :=
  ⟨⟨_, rfl, by decide⟩, _, rfl, by decide⟩

theorem witness_LockOutSuppressesPushes :
    ∃ u, inWindow.debounceActive = true ∧ (∀ d, Instr.kpRelease ≠ .kpInit d) ∧
      exec .kpRelease (at_ 50100 inWindow) = .next u ∧ u.debounceActive = false :=
  ⟨_, rfl, (by intro d h; cases h), rfl, by decide⟩

/-- A window with an idle step, a reserved byte and a release one microsecond short in it. -/
theorem witness_WindowHoldsOverARun :
    ∃ s : State, s.debounceActive = true ∧ s.host.length = 3 ∧ ∀ e ∈ s.host, WindowEvent s e := by
  refine ⟨{ inWindow with host := [.idle, .command 0x3000000000#40 20000 (.levels 2),
    .command (encode .kpRelease) 50099 (.levels 2)] }, rfl, rfl, ?_⟩
  simp only [List.forall_mem_cons, List.not_mem_nil, IsEmpty.forall_iff, implies_true, and_true,
    WindowEvent, true_and]
  exact ⟨⟨by decide, fun i h => by cases h⟩, by decide, fun i h => by cases h; rfl⟩

theorem witness_DisabledDebounceTimerLocks :
    ∃ s : State, s.debounceActive = true ∧ s.deb.enabled = false ∧ s.kpEnabled = true ∧
      reached s.params s.now s.deb.nextDeadline = true ∧
      (∀ d, Instr.kpRelease ≠ .kpInit d) ∧ (∀ p, Instr.kpRelease ≠ .tmrInitDeb p) ∧
      Instr.kpRelease ≠ .tmrEnDeb ∧ ∃ u, exec .kpRelease s = .next u :=
  ⟨at_ 60000 { inWindow with deb := timer 50300 50000 false }, rfl, rfl, rfl, by decide,
    (by intro d h; cases h), (by intro d h; cases h), (by intro h; cases h), _, rfl⟩

theorem witness_DacTickSamplesOnExpiry :
    check (at_ 625 { ref with smp := timer 625 625 true }) .smp = true ∧
    check (at_ 624 { ref with smp := timer 625 625 true }) .smp = false ∧
    check (at_ 625 { ref with smp := timer 625 625 false }) .smp = false := by decide

theorem witness_QuantiserIsMonotone :
    ∃ (a b : Int) (u v : State), a ≤ b ∧ exec (.dacSet a) ref = .next u ∧
      exec (.dacSet b) ref = .next v :=
  ⟨-282, -281, _, _, by decide, rfl, rfl⟩

/-- A command of another unit, and a tick whose timer has not expired. -/
theorem witness_DacLinesHoldBetweenWrites :
    (∃ u, exec (.kpInit 50000) ref = .next u ∧ (∀ mv, Instr.kpInit 50000 ≠ .dacSet mv)) ∧
    ∃ u, exec (.dacTick 7) ref = .next u ∧ (∀ mv, Instr.dacTick 7 ≠ .dacSet mv) ∧
      check ref .smp = false :=
  ⟨⟨_, rfl, by intro mv h; cases h⟩, _, rfl, (by intro mv h; cases h), by decide⟩

theorem witness_UnitsWriteOnlyTheirOwn :
    (∃ u, unitOf .kpTick = 4 ∧ exec .kpTick onRow3 = .next u) ∧
    ∃ u, unitOf (.dacTick 5) = 8 ∧ exec (.dacTick 5) onRow3 = .next u :=
  ⟨⟨_, by decide, rfl⟩, _, by decide, rfl⟩

theorem witness_UnitsReadOnlyTheirOwn : unitOf (.kpHist 3) = 4 ∧ unitOf (.dacSet 5) = 8 := by decide

theorem witness_RepeatedCommandsAreIdempotent :
    (¬ Accumulates (at_ 50100 inWindow) .kpRelease ∧
      ∃ u, exec .kpRelease (at_ 50100 inWindow) = .next u) ∧
    (¬ Accumulates inWindow .kpCapture ∧ ∃ u, exec .kpCapture inWindow = .next u) ∧
    ¬ Accumulates onRow3 .kpCapture :=
  ⟨⟨id, _, rfl⟩, ⟨(by decide : ¬ Pushes inWindow), _, rfl⟩, (by decide : ¬ Pushes onRow3)⟩

/-- P1 at step 6, as the last event of a host that then stops: one key is captured, and it is 5. -/
theorem witness_HistoryKeepsTheLastTen :
    ∃ s : State, s.Inv ∧ (∀ i : Fin 10, s.hist.get i = 0x1F) ∧ (∀ e ∈ s.host, KeepsHistory e) ∧
      capturedKeys 2 s = [5] := by
  refine ⟨{ onRow3 with capturedColumns := 2, host := [.command 0x4500000000#40 100 (.levels 0)] },
    { inv_onRow3 with }, by decide, ?_, by decide⟩
  simp only [List.forall_mem_cons, List.not_mem_nil, IsEmpty.forall_iff, implies_true, and_true,
    KeepsHistory]
  intro i h d
  cases h
  exact Instr.noConfusion

theorem witness_RowThreeHasKeyFive :
    refParams.Legal ∧ onRow3.params = refParams ∧ onRow3.kpEnabled = true ∧
    onRow3.rowPattern = 0x8 ∧ (2 : BitVec 4) = 1#4 <<< (1 : Fin 4).val := by decide

/-- R85 point 4 with `KEYMAP_REF`: the column of the key 5 is column 1 (R86). -/
theorem test_key_five_column : (Config.keymapRef.get 3).get 1 = 5 := by decide

end Sys2Proof.Tests
end

section
/-! SUPPORT. What a command can do to the state, said once: `Effect s i v` lists every state `v` that
command `i` can leave from `s` before it sets its response, with the guard under which it does so. The
statements about every command follow from it by one case each. -/

namespace Sys2Proof.Machine

/-- Command `i` writes the record `x` to timer `t` of the state `s` (40_timer.md R104 to R111). -/
inductive TimerCommand (s : State) : TimerId → Instr → Timer → Prop
  | init (t : TimerId) (p : Nat) : TimerCommand s t (Instr.tmrInit t p)
      { nextDeadline := tadd s.params s.now (clampP s.params p), period := clampP s.params p
        enabled := true }
  | advn (t : TimerId) : TimerCommand s t (Instr.tmrAdvn t)
      { timerOf s t with nextDeadline := tadd s.params s.now (timerOf s t).period }
  | advp (t : TimerId) : TimerCommand s t (Instr.tmrAdvp t)
      { timerOf s t with
        nextDeadline := tadd s.params (timerOf s t).nextDeadline (timerOf s t).period }
  | setp (t : TimerId) (p : Nat) : TimerCommand s t (Instr.tmrSetp t p)
      { timerOf s t with period := clampP s.params p }
  | en (t : TimerId) : TimerCommand s t (Instr.tmrEn t) { timerOf s t with enabled := true }
  | dis (t : TimerId) : TimerCommand s t (Instr.tmrDis t) { timerOf s t with enabled := false }
  | setf (hz : Nat) (h : hz ≠ 0) : TimerCommand s .smp (.tmrSetf hz)
      { timerOf s .smp with period := frequencyPeriod s.params hz }

/-- The commands that answer and write nothing in any state (R105, 41_keypad.md R135, R138, R140,
R141). -/
def reads : Instr → Bool
  | .tmrCheckScan | .tmrCheckDeb | .tmrCheckSmp | .kpGetkey | .kpIsdz | .kpStat | .kpHist _ => true
  | _ => false

/-- Command `i` leaves the state `s` as it is, its response aside: a read, or a command whose guard is
off (R111, 41_keypad.md R120, 42_dac.md R163). -/
inductive Holds (s : State) : Instr → Prop
  | read {i : Instr} (h : reads i = true) : Holds s i
  | disabled {i : Instr} (hi : i ∈ gatedCommands) (h : s.kpEnabled = false) : Holds s i
  | setfZero : Holds s (.tmrSetf 0)
  | notExpired (mv : Int) (h : check s .smp = false) : Holds s (.dacTick mv)

/-- What command `i` can make of the state `s`, its response aside. -/
inductive Effect (s : State) : Instr → State → Prop
  | hold {i : Instr} (h : Holds s i) : Effect s i s
  | timer {t : TimerId} {i : Instr} {x : Timer} (h : TimerCommand s t i x) :
      Effect s i (setTimer t x s)
  | kpInit (deb : Nat) : Effect s (.kpInit deb) (keypadInit deb s)
  | tick (h : s.kpEnabled = true) : Effect s .kpTick (keypadTick s)
  | rowadv (h : s.kpEnabled = true) : Effect s .kpRowadv (pRowAdv s)
  | sample (h : s.kpEnabled = true) : Effect s .kpSample (pSample s)
  | decode (h : s.kpEnabled = true) : Effect s .kpDecode (pDecode s)
  | capture (h : s.kpEnabled = true) : Effect s .kpCapture (pCapture (pDecode s))
  | release (h : s.kpEnabled = true) : Effect s .kpRelease (pRelease s)
  | setdz (h : s.kpEnabled = true) : Effect s .kpSetdz (setDoubleZero true s)
  | clrdz (h : s.kpEnabled = true) : Effect s .kpClrdz (setDoubleZero false s)
  | ack (h : s.kpEnabled = true) : Effect s .kpAck (clearPending s)
  | en : Effect s .kpEn (setKeypadEnabled true s)
  | dis : Effect s .kpDis (setKeypadEnabled false s)
  | dacSet (mv : Int) : Effect s (.dacSet mv) (writeDac mv s)
  | dacTick (mv : Int) (h : check s .smp = true) :
      Effect s (.dacTick mv) (writeDac mv (timerAdvanceByPeriod .smp s))

/-- Command `i` answers an effect of its own, with some response set. -/
def AnswersEffect (i : Instr) (s : State) : Prop :=
  ∃ r v, exec i s = .next (respond r v) ∧ Effect s i v

/-- A command that holds the state answers it. -/
theorem answersEffect_of_holds {i : Instr} {s : State} {r : Response} (hi : Holds s i)
    (h : exec i s = answer r s) : AnswersEffect i s :=
  ⟨r, s, h, .hold hi⟩

/-- A timer command answers the state with one record written. -/
theorem answersEffect_of_timer {i : Instr} {s : State} {t : TimerId} {x : Timer}
    (hx : TimerCommand s t i x) (h : exec i s = answer 0 (setTimer t x s)) : AnswersEffect i s :=
  ⟨0, _, h, .timer hx⟩

/-- A gated command runs its operation or holds the state (41_keypad.md R120). -/
theorem answersEffect_of_gated {i : Instr} {s : State} {f : State → State}
    (hi : i ∈ gatedCommands) (h : exec i s = answer 0 (whenEnabled f s))
    (hf : s.kpEnabled = true → Effect s i (f s)) : AnswersEffect i s := by
  obtain ⟨hen, he⟩ | ⟨hdis, he⟩ := whenEnabled_cases f s <;> rw [he] at h
  · exact ⟨0, _, h, hf hen⟩
  · exact answersEffect_of_holds (.disabled hi hdis) h

/-- `TMR.SETF` holds the state at frequency 0 and otherwise writes a period (40_timer.md R111). -/
theorem answersEffect_tmrSetf (hz : Nat) (s : State) : AnswersEffect (.tmrSetf hz) s := by
  by_cases h : hz = 0
  · subst h
    exact answersEffect_of_holds .setfZero rfl
  · exact answersEffect_of_timer (.setf hz h) (congrArg (answer 0) (if_neg h))

/-- `DAC.TICK` holds the state until the sample timer has expired (42_dac.md R163). -/
theorem answersEffect_dacTick (mv : Int) (s : State) : AnswersEffect (.dacTick mv) s := by
  cases h : check s .smp
  · exact answersEffect_of_holds (.notExpired mv h) (if_neg (by simp [h]))
  · exact ⟨1, _, if_pos h, .dacTick mv h⟩

/-- Every command answers one of its effects. -/
theorem exec_answersEffect (i : Instr) (s : State) : AnswersEffect i s :=
  match i with
  | .tmrInitScan p => answersEffect_of_timer (.init .scan p) rfl
  | .tmrInitDeb p => answersEffect_of_timer (.init .deb p) rfl
  | .tmrInitSmp p => answersEffect_of_timer (.init .smp p) rfl
  | .tmrCheckScan | .tmrCheckDeb | .tmrCheckSmp => answersEffect_of_holds (.read rfl) rfl
  | .tmrAdvnScan => answersEffect_of_timer (.advn .scan) rfl
  | .tmrAdvnDeb => answersEffect_of_timer (.advn .deb) rfl
  | .tmrAdvnSmp => answersEffect_of_timer (.advn .smp) rfl
  | .tmrAdvpScan => answersEffect_of_timer (.advp .scan) rfl
  | .tmrAdvpDeb => answersEffect_of_timer (.advp .deb) rfl
  | .tmrAdvpSmp => answersEffect_of_timer (.advp .smp) rfl
  | .tmrSetpScan p => answersEffect_of_timer (.setp .scan p) rfl
  | .tmrSetpDeb p => answersEffect_of_timer (.setp .deb p) rfl
  | .tmrSetpSmp p => answersEffect_of_timer (.setp .smp p) rfl
  | .tmrEnScan => answersEffect_of_timer (.en .scan) rfl
  | .tmrEnDeb => answersEffect_of_timer (.en .deb) rfl
  | .tmrEnSmp => answersEffect_of_timer (.en .smp) rfl
  | .tmrDisScan => answersEffect_of_timer (.dis .scan) rfl
  | .tmrDisDeb => answersEffect_of_timer (.dis .deb) rfl
  | .tmrDisSmp => answersEffect_of_timer (.dis .smp) rfl
  | .tmrSetf hz => answersEffect_tmrSetf hz s
  | .kpInit deb => ⟨0, _, rfl, .kpInit deb⟩
  | .kpTick => answersEffect_of_gated (by decide) rfl .tick
  | .kpRowadv => answersEffect_of_gated (by decide) rfl .rowadv
  | .kpSample => answersEffect_of_gated (by decide) rfl .sample
  | .kpDecode => answersEffect_of_gated (by decide) rfl .decode
  | .kpCapture => answersEffect_of_gated (by decide) rfl .capture
  | .kpRelease => answersEffect_of_gated (by decide) rfl .release
  | .kpSetdz => answersEffect_of_gated (by decide) rfl .setdz
  | .kpClrdz => answersEffect_of_gated (by decide) rfl .clrdz
  | .kpAck => answersEffect_of_gated (by decide) rfl .ack
  | .kpGetkey | .kpIsdz | .kpStat | .kpHist _ => answersEffect_of_holds (.read rfl) rfl
  | .kpEn => ⟨0, _, rfl, .en⟩
  | .kpDis => ⟨0, _, rfl, .dis⟩
  | .dacSet mv => ⟨0, _, rfl, .dacSet mv⟩
  | .dacTick mv => answersEffect_dacTick mv s

/-- The state a command leaves is one of its effects with the response set. -/
theorem exec_effect {i : Instr} {s u : State} (h : exec i s = .next u) :
    ∃ r v, u = respond r v ∧ Effect s i v := by
  obtain ⟨r, v, hv, he⟩ := exec_answersEffect i s
  rw [hv] at h
  cases h
  exact ⟨r, v, rfl, he⟩

end Sys2Proof.Machine
end

section
/-! SUPPORT. The invariant through the initialisation, a tick, each command and a reset. -/

namespace Sys2Proof.Machine

theorem historyShape_empty : HistoryShape (Vector.replicate 10 keyNone) := by decide

/-- The record a timer command writes is legal (10_state.md R24, R25). -/
theorem TimerCommand.legal {s : State} {t : TimerId} {i : Instr} {x : Timer} (hs : s.Inv)
    (h : TimerCommand s t i x) : Timer.Legal s.params x := by
  have hclock := hs.params.1
  have ht := hs.timer t
  cases h with
  | init _ p => exact ⟨tadd_lt _ _ _, clampP_legal hclock p⟩
  | advn => exact ⟨tadd_lt _ _ _, ht.2⟩
  | advp => exact ⟨tadd_lt _ _ _, ht.2⟩
  | setp _ p => exact ⟨ht.1, clampP_legal hclock p⟩
  | en => exact ht
  | dis => exact ht
  | setf hz => exact ⟨ht.1, clampP_legal hclock _⟩

theorem State.Inv.advancedByPeriod {s : State} (h : s.Inv) (t : TimerId) :
    State.Inv (timerAdvanceByPeriod t s) :=
  h.setTimer t (TimerCommand.legal h (.advp t))

/-- `KP.INIT` keeps the invariant (41_keypad.md R128). -/
theorem State.Inv.keypadInit {s : State} (h : s.Inv) (deb : Nat) :
    State.Inv (keypadInit deb s) := by
  have hclock := h.params.1
  rw [keypadInit_eq]
  exact { h with
    scan := ⟨tadd_lt _ _ _, clampP_legal hclock _⟩
    deb := ⟨tadd_lt _ _ _, clampP_legal hclock _⟩
    rowPattern := rfl, rowLines := rfl, decodedKey := .inr rfl, hist := historyShape_empty
    rawCode := .inl rfl
    lineCfg := (congrArg configureKeypadLines h.lineCfg).trans configureKeypadLines_reset }

theorem State.Inv.decodeCapture {s : State} (h : s.Inv) : State.Inv (pCapture (pDecode s)) :=
  h.decode.capture pDecode_key

/-- A tick keeps the invariant (41_keypad.md R129). -/
theorem State.Inv.tick {s : State} (h : s.Inv) : State.Inv (keypadTick s) := by
  unfold keypadTick
  split
  · exact (h.advancedByPeriod .scan).rowAdv.sample.decodeCapture.release
  · exact h.release

/-- Every command keeps the invariant. -/
theorem State.Inv.effect {s v : State} {i : Instr} (h : s.Inv) (he : Effect s i v) : v.Inv := by
  cases he with
  | hold => exact h
  | timer hx => exact h.setTimer _ (hx.legal h)
  | kpInit deb => exact h.keypadInit deb
  | tick => exact h.tick
  | rowadv => exact h.rowAdv
  | sample => exact h.sample
  | decode => exact h.decode
  | capture => exact h.decodeCapture
  | release => exact h.release
  | setdz | clrdz | ack | en | dis => exact { h with }
  | dacSet mv => exact h.dacWritten mv
  | dacTick mv => exact (h.advancedByPeriod .smp).dacWritten mv

theorem State.Inv.exec {s u : State} {i : Instr} (h : s.Inv) (hu : exec i s = .next u) : u.Inv := by
  obtain ⟨r, v, rfl, he⟩ := exec_effect hu
  exact (h.effect he).answered r

/-- What the host still has to issue is no part of the invariant. -/
theorem State.Inv.withHost {s : State} (h : s.Inv) (es : List HostEvent) :
    State.Inv { s with host := es } := { h with }

theorem State.Inv.sampled {s : State} (h : s.Inv) (n : Nat) (c : Columns) :
    State.Inv (sampleInputs n c s) :=
  { h with now := Nat.mod_lt _ (modulus_pos _) }

/-- One command word keeps the invariant, a reserved one too (30_encoding.md R91). -/
theorem State.Inv.performCommand {s u : State} {w : CommandWord} (h : s.Inv)
    (hu : performCommand w s = .next u) : u.Inv := by
  cases hw : Sys2Proof.decode w with
  | ok i => exact h.exec ((performCommand_of_decode hw s).symm.trans hu)
  | error e =>
    rw [performCommand_of_error hw] at hu
    cases hu
    exact h.answered 0

theorem Timer.reset_legal {p : Params} (h : p.LegalClock) : Timer.Legal p Timer.reset :=
  ⟨modulus_pos p, le_rfl, periodMax_pos h⟩

/-- The reset state of a block with legal parameters is sound (70_reset_and_hazards.md R190). -/
theorem State.resetWith_inv {p : Params} (h : p.Legal) (n : Nat) : (State.resetWith p n).Inv where
  params := h
  now := modulus_pos p
  scan := Timer.reset_legal h.1
  deb := Timer.reset_legal h.1
  smp := Timer.reset_legal h.1
  rowPattern := rfl
  rowLines := rfl
  decodedKey := .inr rfl
  hist := historyShape_empty
  rawCode := .inl rfl
  dacLines := rfl
  lineCfg := rfl

theorem State.Inv.hardwareReset {s : State} (h : s.Inv) : State.Inv (hardwareReset s) :=
  (State.resetWith_inv h.params _).withHost s.host

theorem step_of_no_event {s : State} (h : s.host = []) : step s = .next s := by
  simp only [step, h]

/-- Settles O11: case by case over the host's next event, and for a command over its effects. -/
theorem everyStepKeepsTheInvariant : Obligations.EveryStepKeepsTheInvariant := by
  unfold Obligations.EveryStepKeepsTheInvariant
  intro s u h hu
  match hs : s.host with
  | [] =>
    rw [step_of_no_event hs] at hu
    cases hu
    exact h
  | .idle :: rest =>
    rw [step_of_idle hs] at hu
    cases hu
    exact h.withHost rest
  | .reset :: rest =>
    rw [step_of_reset hs] at hu
    cases hu
    exact (h.withHost rest).hardwareReset
  | .command w n c :: rest =>
    rw [step_of_command hs] at hu
    exact ((h.withHost rest).sampled n c).performCommand hu

/-- Settles O10: the default parameters are legal ones. -/
theorem resetMeetsTheInvariant : Obligations.ResetMeetsTheInvariant :=
  State.resetWith_inv Config.defaultParams_legal 0

/-- Settles O5, from the step on a command and the decoder's two answers. -/
theorem stepRunsDecodedCommand : Obligations.StepRunsDecodedCommand := by
  unfold Obligations.StepRunsDecodedCommand
  intro s w n c rest hs
  rw [step_of_command hs]
  exact ⟨fun i hi => performCommand_of_decode hi _, fun e he => performCommand_of_error he _⟩

end Sys2Proof.Machine
end

section
/-! SUPPORT. Which commands write the inputs, the keypad's flags and history, and the timers. -/

namespace Sys2Proof.Machine

/-! ### Inputs and the double-zero flag -/

theorem Effect.sameInputs {s v : State} {i : Instr} (he : Effect s i v) : SameInputs s v := by
  unfold SameInputs
  cases he with
  | kpInit deb => simp [keypadInit_eq]
  | setdz | clrdz | ack | en | dis => exact ⟨rfl, rfl, rfl, rfl, rfl⟩
  | _ => simp

/-- Settles O12, effect by effect. -/
theorem noCommandWritesInputs : Obligations.NoCommandWritesInputs := by
  unfold Obligations.NoCommandWritesInputs
  intro i s u hu
  obtain ⟨r, v, rfl, he⟩ := exec_effect hu
  exact he.sameInputs

/-- The double-zero flag's writers and what they leave (10_state.md R36). -/
theorem Effect.doubleZeroFlag {s v : State} {i : Instr} (he : Effect s i v) :
    v.doubleZeroFlag = s.doubleZeroFlag ∨ (v.doubleZeroFlag = true ∧ i = .kpSetdz) ∨
    (v.doubleZeroFlag = false ∧ (i = .kpClrdz ∨ ∃ d, i = .kpInit d)) := by
  cases he with
  | setdz => exact .inr (.inl ⟨rfl, rfl⟩)
  | clrdz => exact .inr (.inr ⟨rfl, .inl rfl⟩)
  | kpInit deb => exact .inr (.inr ⟨by rw [keypadInit_eq], .inr ⟨deb, rfl⟩⟩)
  | ack | en | dis => exact .inl rfl
  | _ => exact .inl (by simp)

/-- Settles O42, effect by effect. -/
theorem doubleZeroFlagIsHostOwned : Obligations.DoubleZeroFlagIsHostOwned := by
  unfold Obligations.DoubleZeroFlagIsHostOwned
  intro i s u hu hne
  obtain ⟨r, v, rfl, he⟩ := exec_effect hu
  exact he.doubleZeroFlag.resolve_left hne

/-! ### The history and the pending flag -/

/-- The history and the pending flag are as before. -/
def KeepsKeys (s v : State) : Prop :=
  v.hist = s.hist ∧ v.keyPendingFlag = s.keyPendingFlag

/-- Outside the lock-out one key was pushed onto the history, and flagged (41_keypad.md R125). -/
def PushedKey (s v : State) : Prop :=
  s.debounceActive = false ∧ v.keyPendingFlag = true ∧
  ∃ k : KeyCode, k.toNat ≤ 15 ∧ v.hist = histPush k s.hist

/-- A capture after a decode pushes a key or leaves history and flag (R123, R125). -/
theorem pCapture_pDecode_keys (s : State) :
    PushedKey s (pCapture (pDecode s)) ∨ KeepsKeys s (pCapture (pDecode s)) := by
  obtain ⟨hc, he⟩ | ⟨-, he⟩ := pCapture_cases (pDecode s) <;> rw [he]
  · obtain ⟨-, hv, hd⟩ := (captures_iff _).1 hc
    exact .inl ⟨hd, rfl, _, pDecode_key hv, rfl⟩
  · exact .inr ⟨rfl, rfl⟩

theorem scanBranch_keys (s : State) :
    PushedKey s (scanBranch s) ∨ KeepsKeys s (scanBranch s) :=
  pCapture_pDecode_keys (pSample (pRowAdv (timerAdvanceByPeriod .scan s)))

/-- A tick pushes a key or leaves history and flag (R129). -/
theorem keypadTick_keys (s : State) :
    PushedKey s (keypadTick s) ∨ KeepsKeys s (keypadTick s) := by
  simp only [PushedKey, KeepsKeys, keypadTick, pRelease_hist, pRelease_keyPendingFlag]
  split
  · exact scanBranch_keys s
  · exact .inr ⟨rfl, rfl⟩

/-- The writers of the history and of the pending flag, and what each leaves (10_state.md R35,
R37). -/
theorem Effect.keys {s v : State} {i : Instr} (he : Effect s i v) :
    KeepsKeys s v ∨ ((i = .kpTick ∨ i = .kpCapture) ∧ PushedKey s v) ∨
    (i = .kpAck ∧ v.hist = s.hist ∧ v.keyPendingFlag = false) ∨
    ((∃ d, i = .kpInit d) ∧ v.hist = Vector.replicate 10 keyNone ∧ v.keyPendingFlag = false) := by
  cases he with
  | tick => exact (keypadTick_keys s).symm.imp_right fun h => .inl ⟨.inl rfl, h⟩
  | capture => exact (pCapture_pDecode_keys s).symm.imp_right fun h => .inl ⟨.inr rfl, h⟩
  | ack => exact .inr (.inr (.inl ⟨rfl, rfl, rfl⟩))
  | kpInit deb =>
    rw [keypadInit_eq]
    exact .inr (.inr (.inr ⟨⟨deb, rfl⟩, rfl, rfl⟩))
  | setdz | clrdz | en | dis => exact .inl ⟨rfl, rfl⟩
  | _ => exact .inl (by simp [KeepsKeys])

/-- Settles O43, from the writers of the keypad's history and pending flag. -/
theorem pendingFlagHasItsWriters : Obligations.PendingFlagHasItsWriters := by
  unfold Obligations.PendingFlagHasItsWriters
  intro i s u hu hne
  obtain ⟨r, v, rfl, he⟩ := exec_effect hu
  obtain ⟨-, hk⟩ | ⟨hi, hd, hp, k, -, hh⟩ | ⟨rfl, -, hp⟩ | ⟨hi, -, hp⟩ := he.keys
  · exact absurd hk hne
  · refine .inl ⟨hp, hi, hd, fun j => ?_⟩
    rw [respond_hist, hh, histPush_succ]
  · exact .inr ⟨hp, .inl rfl⟩
  · exact .inr ⟨hp, .inr hi⟩

/-- Settles O47, from the writers of the keypad's history and pending flag. -/
theorem historyIsPushedOrEmptied : Obligations.HistoryIsPushedOrEmptied := by
  unfold Obligations.HistoryIsPushedOrEmptied
  intro i s u hu hne
  obtain ⟨r, v, rfl, he⟩ := exec_effect hu
  simp only [respond_hist] at hne ⊢
  obtain ⟨hk, -⟩ | ⟨hi, -, -, k, hk, hh⟩ | ⟨-, hk, -⟩ | ⟨hi, hh, -⟩ := he.keys
  · exact absurd hk hne
  · rw [hh]
    exact .inr ⟨hi, hk, histPush_succ k s.hist⟩
  · exact absurd hk hne
  · rw [hh]
    exact .inl ⟨hi, by decide⟩

/-! ### Timers -/

/-- `i` creates timer `t`, writing its whole record (10_state.md R24 to R26). -/
def CreatesTimer (t : TimerId) (i : Instr) : Prop :=
  (∃ p, i = Instr.tmrInit t p) ∨ (t ≠ .smp ∧ ∃ d, i = .kpInit d)

/-- `i` writes the period of timer `t` alone (R25). -/
def SetsPeriod (t : TimerId) (i : Instr) : Prop :=
  (∃ p, i = Instr.tmrSetp t p) ∨ (t = .smp ∧ ∃ hz, i = .tmrSetf hz)

/-- `i` writes the deadline of timer `t` alone (R24). -/
def AdvancesTimer (t : TimerId) (i : Instr) : Prop :=
  i = Instr.tmrAdvn t ∨ i = Instr.tmrAdvp t ∨ (t = .deb ∧ (i = .kpCapture ∨ i = .kpTick)) ∨
  (t = .scan ∧ i = .kpTick) ∨ (t = .smp ∧ ∃ mv, i = .dacTick mv)

/-- `i` writes the enable bit of timer `t` alone (R26). -/
def TogglesTimer (t : TimerId) (i : Instr) : Prop :=
  i = Instr.tmrEn t ∨ i = Instr.tmrDis t

/-- What command `i` can make of timer `t`'s record `x`: each field is kept but by its writers. -/
inductive TimerWrite (t : TimerId) (i : Instr) (x : Timer) : Timer → Prop
  | keep : TimerWrite t i x x
  | created (y : Timer) (h : CreatesTimer t i) : TimerWrite t i x y
  | period (p : Nat) (h : SetsPeriod t i) : TimerWrite t i x { x with period := p }
  | deadline (d : Nat) (h : AdvancesTimer t i) : TimerWrite t i x { x with nextDeadline := d }
  | enabled (b : Bool) (h : TogglesTimer t i) : TimerWrite t i x { x with enabled := b }

theorem TimerCommand.timerWrite {s : State} {t : TimerId} {i : Instr} {x : Timer}
    (h : TimerCommand s t i x) : TimerWrite t i (timerOf s t) x := by
  cases h with
  | init _ p => exact .created _ (.inl ⟨p, rfl⟩)
  | advn => exact .deadline _ (.inl rfl)
  | advp => exact .deadline _ (.inr (.inl rfl))
  | setp _ p => exact .period _ (.inl ⟨p, rfl⟩)
  | en => exact .enabled true (.inl rfl)
  | dis => exact .enabled false (.inr rfl)
  | setf hz => exact .period _ (.inr ⟨rfl, hz, rfl⟩)

/-- The capture phase moves the debounce deadline at most (41_keypad.md R125). -/
theorem pCapture_deb (s : State) : ∃ d, (pCapture s).deb = { s.deb with nextDeadline := d } := by
  obtain ⟨-, he⟩ | ⟨-, he⟩ := pCapture_cases s <;> rw [he]
  · exact ⟨_, rfl⟩
  · exact ⟨s.deb.nextDeadline, rfl⟩

theorem scanBranch_scan (s : State) :
    (scanBranch s).scan =
      { s.scan with nextDeadline := tadd s.params s.scan.nextDeadline s.scan.period } := by
  simp [scanBranch]

theorem scanBranch_deb (s : State) :
    ∃ d, (scanBranch s).deb = { s.deb with nextDeadline := d } :=
  pCapture_deb (pDecode (pSample (pRowAdv (timerAdvanceByPeriod .scan s))))

/-- A tick moves the deadlines of `SCAN` and `DEB` at most (R129). -/
theorem keypadTick_timerWrite (s : State) (t : TimerId) :
    TimerWrite t .kpTick (timerOf s t) (timerOf (keypadTick s) t) := by
  unfold keypadTick
  split
  · cases t with
    | scan =>
      rw [timerOf_scan, timerOf_scan, pRelease_scan, scanBranch_scan]
      exact .deadline _ (.inr (.inr (.inr (.inl ⟨rfl, rfl⟩))))
    | deb =>
      obtain ⟨d, hd⟩ := scanBranch_deb s
      rw [timerOf_deb, timerOf_deb, pRelease_deb, hd]
      exact .deadline d (.inr (.inr (.inl ⟨rfl, .inr rfl⟩)))
    | smp =>
      rw [timerOf_smp, timerOf_smp, pRelease_smp, scanBranch_smp]
      exact .keep
  · cases t <;> simpa using .keep

/-- `KP.CAPTURE` moves the deadline of `DEB` at most (R133). -/
theorem pCapture_pDecode_timerWrite (s : State) (t : TimerId) :
    TimerWrite t .kpCapture (timerOf s t) (timerOf (pCapture (pDecode s)) t) := by
  cases t with
  | deb =>
    obtain ⟨d, hd⟩ := pCapture_deb (pDecode s)
    rw [timerOf_deb, timerOf_deb, hd]
    exact .deadline d (.inr (.inr (.inl ⟨rfl, .inl rfl⟩)))
  | scan => simpa using .keep
  | smp => simpa using .keep

/-- `KP.INIT` creates `SCAN` and `DEB` and leaves `SMP` (R128). -/
theorem keypadInit_timerWrite (deb : Nat) (s : State) (t : TimerId) :
    TimerWrite t (.kpInit deb) (timerOf s t) (timerOf (keypadInit deb s) t) := by
  rw [keypadInit_eq]
  cases t with
  | scan => exact .created _ (.inr ⟨by decide, deb, rfl⟩)
  | deb => exact .created _ (.inr ⟨by decide, deb, rfl⟩)
  | smp => exact .keep

/-- `DAC.TICK` moves the deadline of `SMP` at most (42_dac.md R163). -/
theorem dacTick_timerWrite (mv : Int) (s : State) (t : TimerId) :
    TimerWrite t (.dacTick mv) (timerOf s t)
      (timerOf (writeDac mv (timerAdvanceByPeriod .smp s)) t) := by
  rw [writeDac_eq]
  cases t with
  | smp => exact .deadline _ (.inr (.inr (.inr (.inr ⟨rfl, mv, rfl⟩))))
  | scan => exact .keep
  | deb => exact .keep

/-- What any command makes of any timer's record. -/
theorem Effect.timerWrite {s v : State} {i : Instr} (he : Effect s i v) (t : TimerId) :
    TimerWrite t i (timerOf s t) (timerOf v t) := by
  cases he with
  | @timer t' i x hx =>
    by_cases ht : t = t'
    · subst ht
      rw [timerOf_setTimer_same]
      exact hx.timerWrite
    · rw [timerOf_setTimer_other ht]
      exact .keep
  | kpInit deb => exact keypadInit_timerWrite deb s t
  | tick => exact keypadTick_timerWrite s t
  | capture => exact pCapture_pDecode_timerWrite s t
  | dacTick mv => exact dacTick_timerWrite mv s t
  | _ => cases t <;> simpa using .keep

/-- Settles O25: each kind of write keeps the other fields. -/
theorem timerFieldsHaveTheirWriters : Obligations.TimerFieldsHaveTheirWriters := by
  unfold Obligations.TimerFieldsHaveTheirWriters
  intro i t s u hu
  obtain ⟨r, v, rfl, he⟩ := exec_effect hu
  rw [timerOf_respond]
  generalize timerOf v t = y, he.timerWrite t = hw
  cases hw with
  | keep => simp
  | created y h => unfold CreatesTimer at h; tauto
  | period p h => unfold SetsPeriod at h; tauto
  | deadline d h => unfold AdvancesTimer at h; tauto
  | enabled b h => unfold TogglesTimer at h; tauto

end Sys2Proof.Machine
end

section
/-! SUPPORT. The key matrix, the order of the history, and commands issued twice at the same inputs
(20_memory.md R64, R66, R67). -/

namespace Sys2Proof.Machine

/-! ### The key matrix and the history -/

/-- Settles O32: the driven row is one-hot, so the matrix answers with its closed keys. -/
theorem matrixSampleReadsDrivenRow : Obligations.MatrixSampleReadsDrivenRow := by
  unfold Obligations.MatrixSampleReadsDrivenRow
  intro s m hen hcols hpat hlines
  have hrow : columnsRead s.cols s.rowLines = m.get s.rowCounter.toFin := by
    rw [hcols, hlines, hpat, columnsRead_matrix]
  have hexec : exec .kpSample s = answer 0 (whenEnabled pSample s) := rfl
  rw [hexec, whenEnabled_of_enabled hen, pSample_eq, hrow]
  rfl

/-- Settles O57, by induction on the keys from the newest back. -/
theorem pushedKeysAreNewestFirst : Obligations.PushedKeysAreNewestFirst := by
  unfold Obligations.PushedKeysAreNewestFirst
  intro ks i
  induction ks using List.reverseRecOn generalizing i with
  | nil => simp
  | append_singleton ks k ih =>
    rw [List.foldl_concat, List.reverse_concat]
    cases i using Fin.cases with
    | zero => rfl
    | succ j =>
      rw [histPush_succ, ih, Fin.val_succ, List.getD_cons_succ]
      rfl

/-! ### Operations that change nothing the second time -/

theorem pDecode_pDecode (s : State) : pDecode (pDecode s) = pDecode s := by
  simp only [pDecode_eq]
  cases decodeRaw s.params.keymap (rawCodeOf s.capturedColumns s.rowPattern) <;> rfl

/-- A release opens the lock-out, and without the lock-out there is none (41_keypad.md R126). -/
theorem pRelease_pRelease (s : State) : pRelease (pRelease s) = pRelease s := by
  obtain ⟨-, -, he⟩ | ⟨-, he⟩ := pRelease_cases s
  · rw [he]
    rfl
  · rw [he, he]

/-- After the decode of an enabled keypad, a capture happens only where `KP.CAPTURE` pushes
(R133). -/
theorem pushes_of_captures {s : State} (hen : s.kpEnabled = true)
    (hc : captures (pDecode s) = true) : Pushes s := by
  obtain ⟨-, hv, hd⟩ := (captures_iff _).1 hc
  obtain ⟨⟨r, hr⟩, c, hcol⟩ := validRaw_rawCodeOf.1 hv
  exact ⟨hen, hd, r, c, hr, hcol⟩

/-- Where `KP.CAPTURE` does not push, an enabled keypad only decodes (R133). -/
theorem pCapture_pDecode_of_not_pushes {s : State} (h : ¬ Pushes s) (hen : s.kpEnabled = true) :
    pCapture (pDecode s) = pDecode s := by
  obtain ⟨hc, -⟩ | ⟨-, he⟩ := pCapture_cases (pDecode s)
  · exact absurd (pushes_of_captures hen hc) h
  · exact he

theorem configureKeypadLines_configureKeypadLines (cfg : Vector LineConfig 16) :
    configureKeypadLines (configureKeypadLines cfg) = configureKeypadLines cfg := by
  ext j hj
  simp only [configureKeypadLines_getElem]
  split_ifs <;> rfl

theorem keypadInit_keypadInit (deb : Nat) (s : State) :
    keypadInit deb (keypadInit deb s) = keypadInit deb s := by
  simp only [keypadInit_eq, configureKeypadLines_configureKeypadLines]

theorem whenEnabled_respond {f : State → State} (hr : ∀ r x, f (respond r x) = respond r (f x))
    (r : Response) (s : State) : whenEnabled f (respond r s) = respond r (whenEnabled f s) := by
  unfold whenEnabled
  rw [respond_kpEnabled, hr]
  split <;> rfl

/-- The enable gate (R120) keeps an operation idempotent. -/
theorem whenEnabled_whenEnabled {f : State → State} {s : State}
    (hf : s.kpEnabled = true → f (f s) = f s) :
    whenEnabled f (whenEnabled f s) = whenEnabled f s := by
  obtain ⟨hen, he⟩ | ⟨-, he⟩ := whenEnabled_cases f s
  · obtain ⟨-, hg⟩ | ⟨-, hg⟩ := whenEnabled_cases f (f s) <;> rw [he, hg]
    exact hf hen
  · rw [he, he]

/-! ### Commands issued twice -/

/-- Command `i`, issued again on the state it left from `s`, leaves it as it is, with the same
response. -/
def Repeats (s : State) (i : Instr) : Prop := ∀ u, exec i s = .next u → exec i u = .next u

/-- A command that answers without writing gives the same answer again. -/
theorem repeats_of_read {i : Instr} {s : State} {r : State → Response}
    (hi : ∀ x, exec i x = answer (r x) x) (hr : ∀ a x, r (respond a x) = r x) : Repeats s i := by
  intro u hu
  rw [hi] at hu
  cases hu
  rw [hi, hr]
  rfl

/-- A command whose operation ignores the response and is idempotent on `s`. -/
theorem repeats_of_operation {i : Instr} {s : State} {f : State → State}
    (hi : ∀ x, exec i x = answer 0 (f x)) (hr : ∀ r x, f (respond r x) = respond r (f x))
    (hf : f (f s) = f s) : Repeats s i := by
  intro u hu
  rw [hi] at hu
  cases hu
  rw [hi, hr, hf]
  rfl

/-- A gated command whose operation ignores the response and is idempotent on an enabled `s`
(R120). -/
theorem repeats_of_gated {i : Instr} {s : State} {f : State → State}
    (hi : ∀ x, exec i x = answer 0 (whenEnabled f x))
    (hr : ∀ r x, f (respond r x) = respond r (f x))
    (hf : s.kpEnabled = true → f (f s) = f s) : Repeats s i :=
  repeats_of_operation hi (whenEnabled_respond hr) (whenEnabled_whenEnabled hf)

theorem repeats_tmrSetf (hz : Nat) (s : State) : Repeats s (.tmrSetf hz) := by
  by_cases h : hz = 0
  · subst h
    exact repeats_of_operation (f := id) (fun _ => rfl) (fun _ _ => rfl) rfl
  · exact repeats_of_operation (fun _ => congrArg (answer 0) (if_neg h)) (fun _ _ => rfl) rfl

theorem repeats_kpCapture {s : State} (h : ¬ Pushes s) : Repeats s .kpCapture := by
  refine repeats_of_gated (fun _ => rfl) (fun r x => ?_) fun hen => ?_
  · rw [pDecode_respond, pCapture_respond]
  · rw [pCapture_pDecode_of_not_pushes h hen, pDecode_pDecode,
      pCapture_pDecode_of_not_pushes h hen]

theorem repeats_dacSet (mv : Int) (s : State) : Repeats s (.dacSet mv) :=
  repeats_of_operation (f := writeDac mv) (fun _ => rfl) (fun _ _ => rfl)
    (by simp only [writeDac_eq])

/-- Every command that does not accumulate repeats. -/
theorem repeats_of_not_accumulates {s : State} :
    ∀ {i : Instr}, ¬ Accumulates s i → Repeats s i
  | .tmrAdvpScan, h | .tmrAdvpDeb, h | .tmrAdvpSmp, h | .kpRowadv, h | .kpTick, h
  | .dacTick _, h => absurd trivial h
  | .tmrInitScan _, _ | .tmrInitDeb _, _ | .tmrInitSmp _, _
  | .tmrAdvnScan, _ | .tmrAdvnDeb, _ | .tmrAdvnSmp, _
  | .tmrSetpScan _, _ | .tmrSetpDeb _, _ | .tmrSetpSmp _, _
  | .tmrEnScan, _ | .tmrEnDeb, _ | .tmrEnSmp, _
  | .tmrDisScan, _ | .tmrDisDeb, _ | .tmrDisSmp, _
  | .kpEn, _ | .kpDis, _ => repeats_of_operation (fun _ => rfl) (fun _ _ => rfl) rfl
  | .tmrCheckScan, _ | .tmrCheckDeb, _ | .tmrCheckSmp, _ | .kpGetkey, _ | .kpIsdz, _ | .kpStat, _
  | .kpHist _, _ => repeats_of_read (fun _ => rfl) fun _ _ => rfl
  | .kpSample, _ | .kpSetdz, _ | .kpClrdz, _ | .kpAck, _ =>
    repeats_of_gated (fun _ => rfl) (fun _ _ => rfl) fun _ => rfl
  | .kpDecode, _ => repeats_of_gated (fun _ => rfl) pDecode_respond fun _ => pDecode_pDecode s
  | .kpRelease, _ => repeats_of_gated (fun _ => rfl) pRelease_respond fun _ => pRelease_pRelease s
  | .kpCapture, h => repeats_kpCapture h
  | .kpInit deb, _ =>
    repeats_of_operation (fun _ => rfl) (fun _ _ => rfl) (keypadInit_keypadInit deb s)
  | .tmrSetf hz, _ => repeats_tmrSetf hz s
  | .dacSet mv, _ => repeats_dacSet mv s

/-- Settles O55, from the commands that do not accumulate. -/
theorem repeatedCommandsAreIdempotent : Obligations.RepeatedCommandsAreIdempotent :=
  fun _ _ u hi hu => repeats_of_not_accumulates hi u hu

end Sys2Proof.Machine
end

section
/-! SUPPORT. The decoder and the encoder against each other, and the reserved opcode bytes
(30_encoding.md R80 to R82, R91). -/

namespace Sys2Proof.Laws.FieldsRoundTrip

/-- The family is complete: its lemmas, in the order of the opcode table. -/
theorem statement_holds (i : Instr) : Statement i :=
  i.rec
    tmrInitScan tmrCheckScan tmrAdvnScan tmrAdvpScan tmrSetpScan tmrEnScan tmrDisScan
    tmrInitDeb tmrCheckDeb tmrAdvnDeb tmrAdvpDeb tmrSetpDeb tmrEnDeb tmrDisDeb
    tmrInitSmp tmrCheckSmp tmrAdvnSmp tmrAdvpSmp tmrSetpSmp tmrEnSmp tmrDisSmp tmrSetf
    kpInit kpTick kpRowadv kpSample kpDecode kpCapture kpRelease kpGetkey kpSetdz kpClrdz
    kpIsdz kpAck kpStat kpHist kpEn kpDis
    dacSet dacTick

end Sys2Proof.Laws.FieldsRoundTrip

namespace Sys2Proof

open Laws.FieldsRoundTrip (statement_holds)

theorem decode_append (o : BitVec 8) (x : BitVec 32) : decode (o ++ x) = decodeFields o x := by
  rw [decode, opcodeOf_append, operandOf_append]

/-- Settles O1, from the round trip of the two fields. -/
theorem decodeOfEncodeIsIdentity : Obligations.DecodeOfEncodeIsIdentity := by
  unfold Obligations.DecodeOfEncodeIsIdentity
  intro i hi
  rw [encode, decode_append]
  exact statement_holds i hi

/-- Settles O4, by evaluating the decoder on the six words. -/
theorem wordsOfEachUnitDecode : Obligations.WordsOfEachUnitDecode :=
  ⟨rfl, rfl, rfl, rfl, rfl, rfl⟩

/-! ### What a decoded word says -/

theorem opcodeByte_of_decodeFields {o : BitVec 8} {x : BitVec 32} {i : Instr}
    (h : decodeFields o x = .ok i) : opcodeByte i = o := by
  unfold decodeFields at h
  split at h <;> cases h
  all_goals exact BitVec.eq_of_toNat_eq (Eq.symm ‹o.toNat = _›)

theorem fitsUnsigned32_toNat (x : BitVec 32) : fitsUnsigned32 x.toNat = true :=
  decide_eq_true x.isLt

theorem fitsSigned32_toInt (x : BitVec 32) : fitsSigned32 x.toInt = true :=
  decide_eq_true ⟨BitVec.le_toInt x, Int.le_of_lt_add_one BitVec.toInt_lt⟩

/-- What the decoder makes of a command's operand field: the command is well formed, and it carries
the field or ignores it (R82). -/
theorem operandField_of_decodeFields {x : BitVec 32} {i : Instr}
    (h : decodeFields (opcodeByte i) x = .ok i) :
    i.wellFormed = true ∧
      (operandField i = x ∨
        operandField i = 0 ∧ ∀ y, decodeFields (opcodeByte i) y = .ok i) := by
  cases i with
  | tmrInitScan | tmrSetpScan | tmrInitDeb | tmrSetpDeb | tmrInitSmp | tmrSetpSmp | tmrSetf
  | kpInit | kpHist =>
    cases h
    exact ⟨fitsUnsigned32_toNat x, .inl ((BitVec.ofNat_toNat 32 x).trans x.setWidth_eq)⟩
  | dacSet | dacTick =>
    cases h
    exact ⟨fitsSigned32_toInt x, .inl (BitVec.ofInt_toInt)⟩
  | _ => exact ⟨rfl, .inr ⟨rfl, fun _ => rfl⟩⟩

/-- Settles O2, from the opcode byte and the operand field of a decoded command. -/
theorem decodedCommandsAreWellFormed : Obligations.DecodedCommandsAreWellFormed := by
  unfold Obligations.DecodedCommandsAreWellFormed
  intro w i h
  have hop : opcodeByte i = opcodeOf w := opcodeByte_of_decodeFields h
  rw [decode, ← hop] at h
  obtain ⟨hwf, hfield⟩ := operandField_of_decodeFields h
  rw [← hop]
  exact ⟨hwf, rfl, by simpa only [decode_append] using hfield⟩

/-! ### Reserved opcode bytes -/

/-- The unit and function numbers that no command has (R91). -/
abbrev ReservedFields (unit fn : Nat) : Prop :=
  unit ∈ [3, 5, 6, 7, 9, 10, 11, 12, 13, 14, 15] ∨ (unit ∈ [0, 1] ∧ 7 ≤ fn) ∨
    (unit = 2 ∧ 8 ≤ fn) ∨ (unit = 8 ∧ 2 ≤ fn)

/-- The opcode byte has a unit and a function number that no command has. -/
abbrev ReservedOpcode (o : BitVec 8) : Prop :=
  ReservedFields (o.extractLsb' 4 4).toNat (o.extractLsb' 0 4).toNat

/-- An opcode byte decodes exactly when it is a command's, with whatever operand field. -/
theorem isOk_decodeFields_iff {o : BitVec 8} {x : BitVec 32} :
    (decodeFields o x).isOk = true ↔ ∃ i, opcodeByte i = o := by
  constructor
  · intro h
    cases hd : decodeFields o x with
    | ok i => exact ⟨i, opcodeByte_of_decodeFields hd⟩
    | error e =>
      rw [hd] at h
      cases h
  · rintro ⟨i, rfl⟩
    cases i <;> rfl

/-- The table of all 256 opcode bytes, at one operand field. -/
theorem isOk_decodeFields_zero :
    ∀ o : BitVec 8, (decodeFields o 0).isOk = true ↔ ¬ ReservedOpcode o := by decide

theorem decodeFields_error_iff {o : BitVec 8} {x : BitVec 32} :
    (∃ e, decodeFields o x = .error e) ↔ ReservedOpcode o := by
  have hok : (decodeFields o x).isOk = true ↔ ¬ ReservedOpcode o :=
    (isOk_decodeFields_iff.trans isOk_decodeFields_iff.symm).trans (isOk_decodeFields_zero o)
  rw [← not_iff_not, ← hok]
  cases decodeFields o x with
  | ok i => exact iff_of_true (by simp) rfl
  | error e => exact iff_of_false (by simp) Bool.false_ne_true

/-- The unit and function numbers of R80 are the halves of the opcode byte. -/
theorem opcodeOf_extractLsb' (w : CommandWord) {j : Nat} (hj : j + 4 ≤ 8) :
    (opcodeOf w).extractLsb' j 4 = w.extractLsb' (32 + j) 4 := by
  unfold opcodeOf
  apply BitVec.eq_of_getLsbD_eq
  intro k hk
  have : j + k < 8 := by omega
  simp [hk, this, Nat.add_assoc]

/-- Settles O3, from the decoder's default arm and the opcode bytes of the commands. -/
theorem reservedOpcodesAreIgnored : Obligations.ReservedOpcodesAreIgnored := by
  unfold Obligations.ReservedOpcodesAreIgnored
  intro w s
  have hunit : (opcodeOf w).extractLsb' 4 4 = w.extractLsb' 36 4 := opcodeOf_extractLsb' w le_rfl
  have hfn : (opcodeOf w).extractLsb' 0 4 = w.extractLsb' 32 4 :=
    opcodeOf_extractLsb' w (by decide)
  rw [← hunit, ← hfn]
  exact ⟨decodeFields_error_iff, fun ⟨_, he⟩ => Machine.performCommand_of_error he s⟩

end Sys2Proof
end

section
/-! SUPPORT. The keypad's phases beside a write of the scan timer, and `KP.DECODE` on row 3
(30_encoding.md R85, R93; 41_keypad.md R129, R132). -/

namespace Sys2Proof.Machine

/-- Settles O56: the crossing of row 3 and the column that legal parameters give. -/
theorem rowThreeHasKeyFive : Obligations.RowThreeHasKeyFive := by
  unfold Obligations.RowThreeHasKeyFive
  rintro p ⟨-, -, c5, hkey⟩
  refine ⟨c5, fun s hp hen hrow hcol => ⟨respond 0 (pDecode s), ?_, ?_⟩⟩
  · exact congrArg (answer 0) (whenEnabled_of_enabled hen)
  · rw [respond_decodedKey, pDecode_eq]
    simp only [decodeRaw_crossing _ 3 c5 hrow hcol, hp, hkey]
    rfl

/-! ### The phases neither read nor write the scan timer -/

theorem pCapture_setTimer_scan (x : Timer) (s : State) :
    pCapture (setTimer .scan x s) = setTimer .scan x (pCapture s) := by
  have h : captures (setTimer .scan x s) = captures s := rfl
  unfold pCapture
  rw [h]
  split <;> rfl

theorem pRelease_setTimer_scan (x : Timer) (s : State) :
    pRelease (setTimer .scan x s) = setTimer .scan x (pRelease s) := by
  have h : ((setTimer .scan x s).debounceActive && check (setTimer .scan x s) .deb)
      = (s.debounceActive && check s .deb) := rfl
  unfold pRelease
  rw [h]
  split <;> rfl

/-- The phases of a scan without the advance of its timer, in the order of R93. -/
def scanPhases (s : State) : State := pRelease (pCapture (pDecode (pSample (pRowAdv s))))

theorem scanPhases_scan (s : State) : (scanPhases s).scan = s.scan := by
  simp [scanPhases]

theorem scanPhases_setTimer_scan (x : Timer) (s : State) :
    scanPhases (setTimer .scan x s) = setTimer .scan x (scanPhases s) := by
  have h : pDecode (pSample (pRowAdv (setTimer .scan x s))) =
      setTimer .scan x (pDecode (pSample (pRowAdv s))) := rfl
  rw [scanPhases, h, pCapture_setTimer_scan, pRelease_setTimer_scan, scanPhases]

/-- A tick at an expired scan timer is the timer's advance, then the phases (R129). -/
theorem keypadTick_of_expired {s : State} (h : check s .scan = true) :
    keypadTick s = scanPhases (timerAdvanceByPeriod .scan s) := by
  rw [keypadTick, if_pos h]
  rfl

/-! ### The commands of `KP.SCAN` -/

theorem execAll_cons {i : Instr} {s t : State} (h : exec i s = .next t) (rest : List Instr) :
    execAll (i :: rest) s = execAll rest t := by
  simp only [execAll, h]

/-- A gated command on an enabled keypad goes on to the next one from its operation's state. -/
theorem execAll_cons_gated {i : Instr} {f : State → State} {s : State}
    (hi : exec i s = answer 0 (whenEnabled f s)) (hen : s.kpEnabled = true) (rest : List Instr) :
    execAll (i :: rest) s = execAll rest (respond 0 (f s)) := by
  rw [whenEnabled_of_enabled hen] at hi
  exact execAll_cons hi rest

/-- `KP.SCAN` on an enabled keypad is its phases (R93). -/
theorem execAll_kpScan {s : State} (hen : s.kpEnabled = true) :
    execAll (pseudoFirst .kpScan) s = .next (respond 0 (scanPhases s)) := by
  rw [pseudoFirst, execAll_cons_gated rfl hen, execAll_cons_gated rfl (by simpa using hen),
    execAll_cons_gated rfl (by simpa using hen), execAll_cons_gated rfl (by simpa using hen)]
  simp only [pSample_respond, pDecode_respond, pCapture_respond, pRelease_respond,
    respond_respond]
  rfl

/-- Settles O38: the phases commute with the advance of the scan timer. -/
theorem kpScanIsTickWithoutTheTimer : Obligations.KpScanIsTickWithoutTheTimer := by
  unfold Obligations.KpScanIsTickWithoutTheTimer
  intro s hen hexp
  refine ⟨_, execAll_kpScan hen, scanPhases_scan s, ?_⟩
  have htick : exec .kpTick s = answer 0 (whenEnabled keypadTick s) := rfl
  rw [htick, whenEnabled_of_enabled hen, keypadTick_of_expired hexp, timerAdvanceByPeriod_eq,
    scanPhases_setTimer_scan]
  rfl

end Sys2Proof.Machine
end

section
/-! SUPPORT. The timer commands: what each answers, how their words decode, the periods they write,
the expiry window, and a run of advances (40_timer.md R101 to R113). -/

namespace Sys2Proof.Machine

/-! ### What the timer commands answer -/

/-- A timer command answers the state with its one record written, and 0 (R104 to R111). -/
theorem TimerCommand.exec_eq {s : State} {t : TimerId} {i : Instr} {x : Timer}
    (h : TimerCommand s t i x) : exec i s = answer 0 (setTimer t x s) := by
  cases h with
  | init | advn | advp | setp | en | dis => cases t <;> rfl
  | setf hz hne => exact congrArg (answer 0) (if_neg hne)

theorem timerFrame_setTimer (t : TimerId) (x : Timer) (r : Response) (s : State) :
    TimerFrame t s (respond r (setTimer t x s)) :=
  ⟨fun _ ht => (timerOf_respond ..).trans (timerOf_setTimer_other ht x s),
    by simp [SameKeypad, SameDac, SameInputs]⟩

/-- A timer command leaves its record, answers 0 and changes nothing else. -/
theorem TimerCommand.writes {s : State} {t : TimerId} {i : Instr} {x : Timer}
    (h : TimerCommand s t i x) :
    ∃ u, exec i s = .next u ∧ timerOf u t = x ∧ u.resp = 0 ∧ TimerFrame t s u :=
  ⟨_, h.exec_eq, timerOf_setTimer_same t x s, rfl, timerFrame_setTimer t x 0 s⟩

/-- The record a timer command leaves, in any state it answers. -/
theorem TimerCommand.timerOf_eq {s u : State} {t : TimerId} {i : Instr} {x : Timer}
    (h : TimerCommand s t i x) (hu : exec i s = .next u) : timerOf u t = x := by
  obtain ⟨v, hv, hx, -⟩ := h.writes
  cases hv.symm.trans hu
  exact hx

theorem exec_tmrCheck (t : TimerId) (s : State) :
    exec (Instr.tmrCheck t) s = .next (respond (bitResponse (check s t)) s) := by
  cases t <;> rfl

/-- `TMR.CHECK` answers any proposition the comparator decides (R105). -/
theorem exec_tmrCheck_of_iff {t : TimerId} {s : State} {P : Prop} [Decidable P]
    (h : check s t = true ↔ P) :
    exec (Instr.tmrCheck t) s = .next (respond (if P then 1 else 0) s) := by
  rw [exec_tmrCheck, bitResponse, if_congr h rfl rfl]

/-- The decoder on an opcode byte says how its command is encoded. -/
theorem encodedWith_of_decodeFields {o : BitVec 8} {f : BitVec 32 → Instr}
    (h : ∀ x, decodeFields o x = .ok (f x)) : EncodedWith o f :=
  fun x => (decode_append o x).trans (h x)

/-- Settles O13, as a write of one record. -/
theorem tmrInitCreatesTimer : Obligations.TmrInitCreatesTimer :=
  fun t p _ =>
    ⟨encodedWith_of_decodeFields fun _ => by cases t <;> rfl, (TimerCommand.init t p).writes⟩

/-- Settles O14, from the comparator as an inequality between integers. -/
theorem tmrCheckAnswersComparator : Obligations.TmrCheckAnswersComparator :=
  fun t s =>
    ⟨encodedWith_of_decodeFields fun _ => by cases t <;> rfl,
      exec_tmrCheck_of_iff (check_iff s t)⟩

/-- Settles O15, as a write of one record. -/
theorem tmrAdvnAdvancesFromNow : Obligations.TmrAdvnAdvancesFromNow :=
  fun t _ =>
    ⟨encodedWith_of_decodeFields fun _ => by cases t <;> rfl, (TimerCommand.advn t).writes⟩

/-- Settles O16, as a write of one record. -/
theorem tmrAdvpAdvancesByPeriod : Obligations.TmrAdvpAdvancesByPeriod :=
  fun t _ =>
    ⟨encodedWith_of_decodeFields fun _ => by cases t <;> rfl, (TimerCommand.advp t).writes⟩

/-- Settles O17, as a write of one record. -/
theorem tmrSetpSetsPeriodOnly : Obligations.TmrSetpSetsPeriodOnly :=
  fun t p _ =>
    ⟨encodedWith_of_decodeFields fun _ => by cases t <;> rfl, (TimerCommand.setp t p).writes⟩

/-- Settles O18, as two writes of one record. -/
theorem tmrEnAndDisWriteEnableOnly : Obligations.TmrEnAndDisWriteEnableOnly :=
  fun t _ =>
    ⟨encodedWith_of_decodeFields fun _ => by cases t <;> rfl,
      encodedWith_of_decodeFields fun _ => by cases t <;> rfl,
      (TimerCommand.en t).writes, (TimerCommand.dis t).writes⟩

/-- Settles O19: frequency 0 holds the state, any other writes the record of `SMP`. -/
theorem tmrSetfRescalesSamplePeriod : Obligations.TmrSetfRescalesSamplePeriod := by
  unfold Obligations.TmrSetfRescalesSamplePeriod
  intro hz s
  refine ⟨encodedWith_of_decodeFields fun _ => rfl, ?_⟩
  by_cases h : hz = 0
  · subst h
    rfl
  · rw [(TimerCommand.setf hz h).exec_eq, if_neg h]
    rfl

/-! ### The periods written -/

theorem clampP_of_legal {p : Params} {x : Nat} (h : 1 ≤ x) (hx : x ≤ periodMax p) :
    clampP p x = x := by
  unfold clampP
  omega

/-- The clamp on its three ranges (R102). -/
theorem clampP_ranges {p : Params} (hp : p.LegalClock) (x : Nat) :
    (x = 0 → clampP p x = 1) ∧ (1 ≤ x ∧ x ≤ periodMax p → clampP p x = x) ∧
      (periodMax p < x → clampP p x = periodMax p) := by
  have := periodMax_pos hp
  unfold clampP
  omega

/-- `KP.INIT` clamps its operand into `DEB` and `SCAN_PERIOD_US` into `SCAN` (41_keypad.md R128). -/
theorem exec_kpInit_periods {d : Nat} {s u : State} (hu : exec (.kpInit d) s = .next u) :
    u.deb.period = clampP s.params d ∧
      u.scan.period = clampP s.params s.params.scanPeriodUs := by
  have hexec : exec (.kpInit d) s = answer 0 (keypadInit d s) := rfl
  rw [hexec, keypadInit_eq] at hu
  cases hu
  exact ⟨rfl, rfl⟩

/-- Settles O20: every writer of a period puts it through the clamp. -/
theorem writtenPeriodsAreLegal : Obligations.WrittenPeriodsAreLegal := by
  unfold Obligations.WrittenPeriodsAreLegal
  intro s hclock
  refine ⟨fun t p i u hi hu => ?_, fun d u hu => ?_, fun hz u hne hu => ?_⟩
  · have hperiod : (timerOf u t).period = clampP s.params p := by
      obtain rfl | rfl | ⟨rfl, rfl⟩ := hi
      · rw [(TimerCommand.init t p).timerOf_eq hu]
      · rw [(TimerCommand.setp t p).timerOf_eq hu]
      · exact (exec_kpInit_periods hu).1
    rw [hperiod]
    exact clampP_ranges hclock p
  · obtain ⟨hlo, hhi⟩ := clampP_legal hclock s.params.scanPeriodUs
    rw [(exec_kpInit_periods hu).2]
    exact ⟨hlo, hhi, fun h => clampP_of_legal h.1 h.2⟩
  · rw [← timerOf_smp, (TimerCommand.setf hz hne).timerOf_eq hu]
    exact clampP_legal hclock _

/-! ### The expiry window -/

/-- Settles O22, from the comparator at `e` elapsed microseconds. -/
theorem expiryWindowIsHalfTheModulus : Obligations.ExpiryWindowIsHalfTheModulus := by
  unfold Obligations.ExpiryWindowIsHalfTheModulus
  intro t n0 p e s hclock hp hen hd hn he
  have hcheck := check_of_elapsed hclock hp hen hd hn he
  exact exec_tmrCheck_of_iff (by rw [hcheck]; exact decide_eq_true_iff)

/-- Settles O21: the comparator at the record that the creation leaves. -/
theorem checkAfterCreation : Obligations.CheckAfterCreation := by
  unfold Obligations.CheckAfterCreation
  intro t p e s s1 u hclock hp1 hp hs1 hparams htimer hnow
  rw [(TimerCommand.init t p).timerOf_eq hs1, clampP_of_legal hp1 hp] at htimer
  rw [← hparams] at hclock hp htimer hnow ⊢
  have hcheck (he : e < p + 2 ^ u.params.clkW) :=
    check_of_elapsed hclock hp (by rw [htimer]) (by rw [htimer]; rfl) hnow he
  refine ⟨fun he => ?_, fun hle he => ?_⟩
  · rw [exec_tmrCheck, hcheck (by omega), decide_eq_false (by omega)]
    rfl
  · rw [exec_tmrCheck, hcheck (by omega), decide_eq_true ⟨hle, he⟩]
    rfl

/-! ### A run of advances -/

theorem timerOf_withHost (s : State) (es : List HostEvent) (t : TimerId) :
    timerOf { s with host := es } t = timerOf s t := by
  cases t <;> rfl

/-- One step on a `TMR.ADVP t` that the host issues (R107). -/
theorem step_tmrAdvp {t : TimerId} {n : Nat} {c : Columns} {rest : List HostEvent} {s : State}
    (hs : s.host = .command (encode (Instr.tmrAdvp t)) n c :: rest) :
    ∃ u, step s = .next u ∧ u.host = rest ∧ u.params = s.params ∧
      timerOf u t = { timerOf s t with
        nextDeadline := tadd s.params (timerOf s t).nextDeadline (timerOf s t).period } := by
  have hdec : decode (encode (Instr.tmrAdvp t)) = .ok (Instr.tmrAdvp t) :=
    decodeOfEncodeIsIdentity _ (by cases t <;> rfl)
  rw [step_of_command hs, performCommand_of_decode hdec, (TimerCommand.advp t).exec_eq]
  exact ⟨_, rfl, by simp, by simp, by simp [timerOf_withHost]⟩

/-- One advance and `k` more are `k + 1` advances, modulo `M`. -/
theorem tadd_add_mul_mod (p : Params) (d q k : Nat) :
    (tadd p d q + k * q) % modulus p = (d + (k + 1) * q) % modulus p := by
  rw [tadd, Nat.mod_add_mod]
  congr 1
  ring

/-- Settles O23, by induction on the events issued. -/
theorem advanceByPeriodNeverDrifts : Obligations.AdvanceByPeriodNeverDrifts := by
  unfold Obligations.AdvanceByPeriodNeverDrifts
  intro t at_ s hd hs
  induction at_ generalizing s with
  | nil =>
    refine ⟨s, rfl, ?_⟩
    rw [List.length_nil, Nat.zero_mul, Nat.add_zero, Nat.mod_eq_of_lt hd]
  | cons a rest ih =>
    obtain ⟨v, hv, hhost, hparams, htimer⟩ := step_tmrAdvp hs
    have hlt : (timerOf v t).nextDeadline < 2 ^ v.params.clkW := by
      rw [htimer, hparams]
      exact tadd_lt ..
    obtain ⟨u, hrun, hu⟩ := ih v hlt hhost
    refine ⟨u, (run_succ hv).trans hrun, ?_⟩
    rw [hu, htimer, hparams]
    exact congrArg (fun d => { timerOf s t with nextDeadline := d }) (tadd_add_mul_mod ..)

end Sys2Proof.Machine
end

section
/-! SUPPORT. The keypad commands one by one: the enable gate, the phases as commands, the reads, the
flags, the status word and `KP.INIT` (41_keypad.md R120 to R143). -/

namespace Sys2Proof.Machine

/-! ### The enable gate -/

/-- A gated command is an operation behind the enable gate, answering 0 (R120). -/
theorem exec_of_gated {i : Instr} (hi : i ∈ gatedCommands) :
    ∃ f, ∀ s, exec i s = answer 0 (whenEnabled f s) := by
  fin_cases hi <;> exact ⟨_, fun _ => rfl⟩

/-- On an enabled keypad a gated command runs its operation. -/
theorem exec_of_enabled {i : Instr} {f : State → State} {s : State}
    (hi : exec i s = answer 0 (whenEnabled f s)) (hen : s.kpEnabled = true) :
    exec i s = .next (respond 0 (f s)) := by
  rw [hi, whenEnabled_of_enabled hen, answer_eq]

/-- Settles O28: the gate is off. -/
theorem disabledKeypadChangesNothing : Obligations.DisabledKeypadChangesNothing := by
  unfold Obligations.DisabledKeypadChangesNothing
  intro i s hi hdis
  obtain ⟨f, hf⟩ := exec_of_gated hi
  rw [hf, whenEnabled_of_disabled hdis]
  rfl

/-- Settles O41: each command is one flag's update, behind the gate or not. -/
theorem flagCommandsWriteTheirFlag : Obligations.FlagCommandsWriteTheirFlag := by
  unfold Obligations.FlagCommandsWriteTheirFlag
  intro s
  refine ⟨encodedWith_of_decodeFields fun _ => rfl, encodedWith_of_decodeFields fun _ => rfl,
    encodedWith_of_decodeFields fun _ => rfl, encodedWith_of_decodeFields fun _ => rfl,
    encodedWith_of_decodeFields fun _ => rfl, fun hen => ?_, fun hdis => ?_, rfl, rfl⟩
  · exact ⟨exec_of_enabled (f := setDoubleZero true) rfl hen,
      exec_of_enabled (f := setDoubleZero false) rfl hen,
      exec_of_enabled (f := clearPending) rfl hen⟩
  · exact ⟨disabledKeypadChangesNothing _ s (by decide) hdis,
      disabledKeypadChangesNothing _ s (by decide) hdis,
      disabledKeypadChangesNothing _ s (by decide) hdis⟩

/-! ### The row advance -/

/-- Bit `r` of a one-hot row pattern (R121). -/
theorem oneShiftLeft_getLsbD (k : BitVec 2) (r : Fin 4) :
    ((1 : BitVec 4) <<< k.toNat).getLsbD r.val = decide (r.val = k.toNat) := by
  revert k r
  decide

/-- Settles O29, from the row advance as one record update. -/
theorem kpRowadvDrivesNextRow : Obligations.KpRowadvDrivesNextRow := by
  unfold Obligations.KpRowadvDrivesNextRow
  intro s
  refine ⟨encodedWith_of_decodeFields fun _ => rfl,
    disabledKeypadChangesNothing _ s (by decide), fun hen => ⟨_, exec_of_enabled rfl hen, ?_⟩⟩
  rw [pRowAdv_eq]
  exact ⟨BitVec.toNat_add s.rowCounter 1, oneShiftLeft_getLsbD _, fun _ => rfl, rfl⟩

/-- Four row advances give back a state whose row pattern and lines follow its row counter (R121). -/
theorem pRowAdv_four {s : State} (hpat : s.rowPattern = (1 : BitVec 4) <<< s.rowCounter.toNat)
    (hlines : s.rowLines = s.rowPattern) : pRowAdv (pRowAdv (pRowAdv (pRowAdv s))) = s := by
  have hwrap : ∀ k : BitVec 2, k + 1 + 1 + 1 + 1 = k := by decide
  simp only [pRowAdv_eq, hwrap, ← hpat]
  exact congrArg (fun x => { s with rowLines := x }) hlines.symm

/-- The successor of a row pattern is the pattern of the next row (R31). -/
theorem rowPattern_successor : ∀ k : BitVec 2,
    ((1 : BitVec 4) <<< k.toNat, (1 : BitVec 4) <<< (k + 1).toNat) ∈
      [((0x1 : BitVec 4), (0x2 : BitVec 4)), (0x2, 0x4), (0x4, 0x8), (0x8, 0x1)] := by decide

/-- Settles O30, from four row advances in a row. -/
theorem fourRowAdvancesComeBack : Obligations.FourRowAdvancesComeBack := by
  unfold Obligations.FourRowAdvancesComeBack
  intro s hen hpat hlines
  refine ⟨?_, fun u hu => ?_⟩
  · have hfour : List.replicate 4 Instr.kpRowadv =
        [.kpRowadv, .kpRowadv, .kpRowadv, .kpRowadv] := rfl
    rw [hfour, execAll_cons_gated rfl hen, execAll_cons_gated rfl (by simpa using hen),
      execAll_cons_gated rfl (by simpa using hen), execAll_cons_gated rfl (by simpa using hen)]
    simp only [pRowAdv_respond, respond_respond, pRowAdv_four hpat hlines]
    rfl
  · rw [exec_of_enabled rfl hen, pRowAdv_eq] at hu
    cases hu
    rw [hpat]
    exact rowPattern_successor s.rowCounter

/-! ### The sample, the decode, the capture, the release -/

/-- Settles O31, from the sample as one record update. -/
theorem kpSampleTakesColumnLevels : Obligations.KpSampleTakesColumnLevels := by
  unfold Obligations.KpSampleTakesColumnLevels
  intro s
  refine ⟨encodedWith_of_decodeFields fun _ => rfl,
    disabledKeypadChangesNothing _ s (by decide), fun hen => ⟨_, exec_of_enabled rfl hen, ?_⟩⟩
  rw [pSample_eq]
  refine ⟨fun _ => rfl, fun v hv => ?_, rfl⟩
  rw [respond_capturedColumns, hv]
  rfl

/-- The key that a decode leaves at a crossing (R123). -/
theorem pDecode_decodedKey_crossing {s : State} {r c : Fin 4}
    (hr : s.rowPattern = 1#4 <<< r.val) (hc : s.capturedColumns = 1#4 <<< c.val) :
    (pDecode s).decodedKey = ((s.params.keymap.get r).get c).setWidth 5 := by
  simp only [pDecode_eq, decodeRaw_crossing _ r c hr hc, Option.getD_some]

/-- Without a crossing a decode keeps the key (R124). -/
theorem pDecode_decodedKey_no_crossing {s : State}
    (h : ¬ ∃ r c : Fin 4, s.rowPattern = 1#4 <<< r.val ∧ s.capturedColumns = 1#4 <<< c.val) :
    (pDecode s).decodedKey = s.decodedKey := by
  simp only [pDecode_eq, decodeRaw_no_crossing _ h, Option.getD_none]

/-- Settles O33, from the decode at a crossing and without one. -/
theorem kpDecodeFormsRawCodeAndKey : Obligations.KpDecodeFormsRawCodeAndKey := by
  unfold Obligations.KpDecodeFormsRawCodeAndKey
  intro s
  refine ⟨encodedWith_of_decodeFields fun _ => rfl,
    disabledKeypadChangesNothing _ s (by decide), fun hen => ⟨_, exec_of_enabled rfl hen, ?_⟩⟩
  exact ⟨rawCodeOf_toNat _ _, fun _ _ => pDecode_decodedKey_crossing,
    pDecode_decodedKey_no_crossing, rfl⟩

/-- Outside the lock-out a decode at a crossing makes the capture phase push (R125). -/
theorem captures_pDecode_crossing {s : State} {r c : Fin 4} (hlock : s.debounceActive = false)
    (hr : s.rowPattern = 1#4 <<< r.val) (hc : s.capturedColumns = 1#4 <<< c.val) :
    captures (pDecode s) = true := by
  have hne : ∀ c : Fin 4, 1#4 <<< c.val ≠ 0 := by decide
  refine (captures_iff _).2 ⟨?_, validRaw_rawCodeOf.2 ⟨⟨r, hr⟩, c, hc⟩, hlock⟩
  rw [pDecode_capturedColumns, hc]
  exact hne c

/-- The capture phase where it pushes (R125). -/
theorem pCapture_of_captures {s : State} (h : captures s = true) :
    pCapture s =
      { s with
        hist := histPush s.decodedKey s.hist
        keyPendingFlag := true
        debounceActive := true
        deb := { s.deb with nextDeadline := tadd s.params s.now s.deb.period } } :=
  if_pos h

/-- Settles O34: the push at a crossing outside the lock-out, and the decode alone elsewhere. -/
theorem kpCaptureDecodesThenPushes : Obligations.KpCaptureDecodesThenPushes := by
  unfold Obligations.KpCaptureDecodesThenPushes
  intro s
  refine ⟨encodedWith_of_decodeFields fun _ => rfl,
    disabledKeypadChangesNothing _ s (by decide), fun r c hen hlock hr hc => ?_, fun hen hno => ?_⟩
  · refine ⟨_, exec_of_enabled rfl hen, ?_⟩
    have hkey := pDecode_decodedKey_crossing hr hc
    rw [pCapture_of_captures (captures_pDecode_crossing hlock hr hc), hkey]
    exact ⟨rawCodeOf_toNat _ _, rfl, histPush_succ _ _, rfl⟩
  · have hpush : ¬ Pushes s := by
      rintro ⟨-, hlock, hcross⟩
      exact hno.elim (by simp [hlock]) fun h => h hcross
    have hexec : exec .kpCapture s = .next (respond 0 (pCapture (pDecode s))) :=
      exec_of_enabled (f := fun x => pCapture (pDecode x)) rfl hen
    rw [pCapture_pDecode_of_not_pushes hpush hen] at hexec
    exact ⟨_, hexec, exec_of_enabled rfl hen, rfl⟩

/-- The release phase where it opens the lock-out (R126). -/
theorem pRelease_of_expired {s : State} (hlock : s.debounceActive = true)
    (hexp : check s .deb = true) :
    pRelease s = { s with debounceActive := false, rawCode := 0, decodedKey := keyNone } :=
  if_pos (by rw [hlock, hexp]; rfl)

/-- The release phase where it does nothing (R126). -/
theorem pRelease_of_not_expired {s : State}
    (h : ¬ (s.debounceActive = true ∧ check s .deb = true)) : pRelease s = s :=
  if_neg (by rwa [Bool.and_eq_true])

/-- Settles O35: the release phase's two cases, with the comparator as an inequality. -/
theorem kpReleaseOpensAfterExpiry : Obligations.KpReleaseOpensAfterExpiry := by
  unfold Obligations.KpReleaseOpensAfterExpiry
  intro s
  refine ⟨encodedWith_of_decodeFields fun _ => rfl, ?_⟩
  intro expired
  have hcheck : check s .deb = true ↔ expired := check_iff s .deb
  rw [← hcheck]
  refine ⟨fun ⟨hen, hlock, hexp⟩ => ?_, fun hno => ?_⟩
  · refine (exec_of_enabled (f := pRelease) rfl hen).trans ?_
    rw [pRelease_of_expired hlock hexp]
    rfl
  · obtain hen | hdis := Bool.eq_false_or_eq_true s.kpEnabled
    · refine (exec_of_enabled (f := pRelease) rfl hen).trans ?_
      rw [pRelease_of_not_expired fun h => hno ⟨hen, h⟩]
      rfl
    · exact disabledKeypadChangesNothing .kpRelease s (by decide) hdis

/-! ### The reads -/

/-- Settles O39: a read answers and writes nothing; an index picks its history entry or none. -/
theorem keypadReadsAnswerAndWriteNothing : Obligations.KeypadReadsAnswerAndWriteNothing := by
  unfold Obligations.KeypadReadsAnswerAndWriteNothing
  intro s
  refine ⟨encodedWith_of_decodeFields fun _ => rfl, encodedWith_of_decodeFields fun _ => rfl,
    encodedWith_of_decodeFields fun _ => rfl, rfl, rfl, fun i => ?_, fun i hi => ?_⟩
  · have hentry : histEntry s.hist i.val = s.hist.get i := dif_pos i.isLt
    exact congrArg (fun k => answer (k.setWidth 32) s) hentry
  · have hentry : histEntry s.hist i = keyNone := dif_neg (by omega)
    exact congrArg (fun k => answer (k.setWidth 32) s) hentry

/-- A word whose bits from `o` on are those of `x` holds `x` there. -/
theorem extractLsb'_eq_of_getLsbD {n w : Nat} {v : BitVec n} {x : BitVec w} (o : Nat)
    (h : ∀ j < w, v.getLsbD (o + j) = x.getLsbD j) : v.extractLsb' o w = x := by
  apply BitVec.eq_of_getLsbD_eq
  intro j hj
  rw [BitVec.getLsbD_extractLsb', h j hj, decide_eq_true hj, Bool.true_and]

/-- Settles O40, field by field from the bits of the status word. -/
theorem kpStatShowsTheStatusWord : Obligations.KpStatShowsTheStatusWord := by
  unfold Obligations.KpStatShowsTheStatusWord
  intro s
  refine ⟨encodedWith_of_decodeFields fun _ => rfl, respond (statusWord s) s, rfl, rfl, ?_⟩
  simp only [respond_resp]
  refine ⟨extractLsb'_eq_of_getLsbD 0 fun j hj => ?_, extractLsb'_eq_of_getLsbD 5 fun j hj => ?_,
    extractLsb'_eq_of_getLsbD 13 fun j hj => ?_, extractLsb'_eq_of_getLsbD 17 fun j hj => ?_,
    extractLsb'_eq_of_getLsbD 21 fun j hj => ?_, statusWord_getLsbD s 23, statusWord_getLsbD s 24,
    statusWord_getLsbD s 25, statusWord_getLsbD s 26,
    extractLsb'_eq_of_getLsbD 27 fun j hj => ?_⟩
  all_goals
    rw [statusWord_getLsbD]
    interval_cases j <;> simp

/-! ### The initialisation -/

theorem emptyHistory_get : ∀ i : Fin 10, (Vector.replicate 10 keyNone).get i = 0x1F := by decide

/-- Settles O27, from the initialisation as one record update. -/
theorem kpInitConstructsKeypad : Obligations.KpInitConstructsKeypad := by
  unfold Obligations.KpInitConstructsKeypad
  intro deb s top ps pd
  have hexec : exec (.kpInit deb) s = .next (respond 0 (keypadInit deb s)) := rfl
  refine ⟨encodedWith_of_decodeFields fun _ => rfl, _, hexec, ?_⟩
  rw [keypadInit_eq]
  exact ⟨rfl, rfl, rfl, rfl, rfl, rfl, rfl, emptyHistory_get, rfl, rfl, rfl, rfl, rfl,
    configureKeypadLines_row s.lineCfg, configureKeypadLines_col s.lineCfg,
    configureKeypadLines_dac s.lineCfg, rfl, rfl, ⟨rfl, rfl⟩, rfl, rfl, rfl, rfl, rfl⟩

end Sys2Proof.Machine
end

section
/-! SUPPORT. `KP.TICK` as its phases, and what a tick does to the history, the lock-out and the
debounce timer (41_keypad.md R125, R126, R129, R174). -/

namespace Sys2Proof.Machine

/-! ### The commands of a tick -/

theorem execAll_single (i : Instr) (s : State) : execAll [i] s = exec i s := by
  cases h : exec i s <;> simp [execAll, h]

theorem execAll_tickPhases {s : State} (hen : s.kpEnabled = true) :
    execAll [.tmrAdvpScan, .kpRowadv, .kpSample, .kpDecode, .kpCapture, .kpRelease] s =
      .next (respond 0 (scanPhases (timerAdvanceByPeriod .scan s))) := by
  have hadv : exec .tmrAdvpScan s = .next (respond 0 (timerAdvanceByPeriod .scan s)) := rfl
  rw [execAll_cons hadv, execAll_cons_gated rfl (by simpa using hen),
    execAll_cons_gated rfl (by simpa using hen), execAll_cons_gated rfl (by simpa using hen),
    execAll_cons_gated rfl (by simpa using hen), execAll_cons_gated rfl (by simpa using hen)]
  simp only [pRowAdv_respond, pSample_respond, pDecode_respond, pCapture_respond,
    pRelease_respond, respond_respond, pDecode_pDecode]
  rfl

/-! ### What a tick leaves as it was -/

/-- `s` with every field that a tick can write taken from `u` (R129). -/
def withTickFields (u s : State) : State :=
  { s with
    scan := { s.scan with nextDeadline := u.scan.nextDeadline }
    deb := { s.deb with nextDeadline := u.deb.nextDeadline }
    rowCounter := u.rowCounter, rowPattern := u.rowPattern, rowLines := u.rowLines
    capturedColumns := u.capturedColumns, rawCode := u.rawCode
    decodedKey := u.decodedKey, hist := u.hist, keyPendingFlag := u.keyPendingFlag
    debounceActive := u.debounceActive, resp := u.resp }

/-- `u` differs from `s` in what a tick can write at most. -/
def TickFrame (s u : State) : Prop := u = withTickFields u s

theorem TickFrame.trans {s t u : State} (hst : TickFrame s t) (htu : TickFrame t u) :
    TickFrame s u :=
  calc u = withTickFields u t := htu
    _ = withTickFields u (withTickFields t s) := congrArg (withTickFields u) hst
    _ = withTickFields u s := rfl

theorem tickFrame_pCapture (s : State) : TickFrame s (pCapture s) := by
  obtain ⟨-, he⟩ | ⟨-, he⟩ := pCapture_cases s <;> rw [he] <;> rfl

theorem tickFrame_pRelease (s : State) : TickFrame s (pRelease s) := by
  obtain ⟨-, -, he⟩ | ⟨-, he⟩ := pRelease_cases s <;> rw [he] <;> rfl

theorem tickFrame_scanBranch (s : State) : TickFrame s (scanBranch s) :=
  TickFrame.trans (t := pDecode (pSample (pRowAdv (timerAdvanceByPeriod .scan s)))) rfl
    (tickFrame_pCapture _)

theorem tickFrame_keypadTick (s : State) : TickFrame s (keypadTick s) := by
  unfold keypadTick
  split
  · exact (tickFrame_scanBranch s).trans (tickFrame_pRelease _)
  · exact tickFrame_pRelease s

/-- A tick without an expired scan timer is the release alone (R129). -/
theorem keypadTick_of_not_expired {s : State} (h : ¬ check s .scan = true) :
    keypadTick s = pRelease s := by
  rw [keypadTick, if_neg h]

/-- Settles O36: the phases of the tick that the comparator selects, and its frame. -/
theorem kpTickIsItsPhasesInOrder : Obligations.KpTickIsItsPhasesInOrder := by
  unfold Obligations.KpTickIsItsPhasesInOrder
  intro s
  refine ⟨encodedWith_of_decodeFields fun _ => rfl,
    disabledKeypadChangesNothing _ s (by decide), fun hen => ⟨_, exec_of_enabled rfl hen, ?_, ?_⟩⟩
  · split
    next hexp =>
      rw [execAll_tickPhases hen, keypadTick_of_expired ((check_iff s .scan).2 hexp)]
    next hexp =>
      rw [execAll_single, keypadTick_of_not_expired fun h => hexp ((check_iff s .scan).1 h)]
      exact exec_of_enabled rfl hen
  · exact congrArg (respond 0) (tickFrame_keypadTick s)

/-! ### Capture and release in one tick -/

/-- From a clear lock-out, the history, the lock-out and the debounce timer are as before. -/
structure StaysOpen (s u : State) : Prop where
  hist : u.hist = s.hist
  lock : u.debounceActive = false
  deb : u.deb = s.deb

/-- The decoded key, a key 0..15, was pushed and flagged, and the debounce window begun (R125). -/
structure BeginsWindow (s u : State) : Prop where
  hist : u.hist = histPush u.decodedKey s.hist
  key : u.decodedKey.toNat ≤ 15
  pending : u.keyPendingFlag = true
  lock : u.debounceActive = true
  deb : u.deb = { s.deb with nextDeadline := tadd s.params s.now s.deb.period }

/-- From a clear lock-out, `KP.CAPTURE` captures or leaves the lock-out clear (R125, R133). -/
theorem pCapture_pDecode_open {s : State} (h : s.debounceActive = false) :
    StaysOpen s (pCapture (pDecode s)) ∨ BeginsWindow s (pCapture (pDecode s)) := by
  obtain ⟨hc, he⟩ | ⟨-, he⟩ := pCapture_cases (pDecode s) <;> rw [he]
  · exact .inr ⟨rfl, pDecode_key ((captures_iff _).1 hc).2.1, rfl, rfl, rfl⟩
  · exact .inl ⟨rfl, h, rfl⟩

theorem scanBranch_open {s : State} (h : s.debounceActive = false) :
    StaysOpen s (scanBranch s) ∨ BeginsWindow s (scanBranch s) :=
  (pCapture_pDecode_open (s := pSample (pRowAdv (timerAdvanceByPeriod .scan s))) h).imp
    (fun ⟨hist, lock, deb⟩ => ⟨hist, lock, deb⟩)
    fun ⟨hist, key, pending, lock, deb⟩ => ⟨hist, key, pending, lock, deb⟩

/-- A deadline one legal period ahead has not been reached (40_timer.md R101). -/
theorem reached_tadd_period {p : Params} {n q : Nat} (hp : p.LegalClock) (hn : n < modulus p)
    (hq1 : 1 ≤ q) (hq : q ≤ periodMax p) : reached p n (tadd p n q) = false := by
  obtain ⟨k, hk, hk1, hk2⟩ := modulus_even hp
  unfold periodMax at hq
  have hdiff := tdiff_before p (n0 := n) (q := q) (e := 0) (by omega) (by omega)
  rw [Nat.add_zero, Nat.mod_eq_of_lt hn] at hdiff
  rw [reached, tadd, hdiff]
  exact decide_eq_false (by omega)

/-- A window that has just begun is not released (60_exceptions.md R174). -/
theorem pRelease_of_beginsWindow {s u : State} (h : s.Inv) (hu : BeginsWindow s u)
    (hparams : u.params = s.params) (hnow : u.now = s.now) : pRelease u = u := by
  obtain ⟨-, hq1, hq⟩ := h.deb
  have hreached := reached_tadd_period h.params.1 h.now hq1 hq
  refine pRelease_of_not_expired fun ⟨_, hexp⟩ => ?_
  simp only [check, timerOf_deb, hu.deb, hparams, hnow, hreached, Bool.and_false,
    Bool.false_eq_true] at hexp

/-- From a clear lock-out, a tick of a sound state captures or leaves the lock-out clear (R129). -/
theorem keypadTick_open {s : State} (h : s.Inv) (hopen : s.debounceActive = false) :
    StaysOpen s (keypadTick s) ∨ BeginsWindow s (keypadTick s) := by
  by_cases hexp : check s .scan = true
  · rw [keypadTick, if_pos hexp]
    obtain hstay | hbegin := scanBranch_open hopen
    · rw [pRelease_of_not_expired (by simp [hstay.lock])]
      exact .inl hstay
    · rw [pRelease_of_beginsWindow h hbegin (scanBranch_params s) (scanBranch_now s)]
      exact .inr hbegin
  · rw [keypadTick_of_not_expired hexp, pRelease_of_not_expired (by simp [hopen])]
    exact .inl ⟨rfl, hopen, rfl⟩

/-- Settles O37: under the lock-out a tick pushes nothing, and from a clear one it captures or not. -/
theorem tickNeverCapturesAndReleases : Obligations.TickNeverCapturesAndReleases := by
  unfold Obligations.TickNeverCapturesAndReleases
  intro s u h hu
  have hexec : exec .kpTick s = .next (respond 0 (whenEnabled keypadTick s)) := rfl
  rw [hexec] at hu
  cases hu
  simp only [respond_hist, respond_debounceActive, respond_deb, respond_keyPendingFlag]
  obtain ⟨-, he⟩ | ⟨-, he⟩ := whenEnabled_cases keypadTick s <;> rw [he]
  · refine ⟨fun hlock => ?_, fun hopen => (keypadTick_open h hopen).imp ?_ ?_⟩
    · obtain ⟨hopen, -⟩ | ⟨hist, -⟩ := keypadTick_keys s
      · exact absurd hlock (by simp [hopen])
      · exact hist
    · exact fun ⟨hist, lock, deb⟩ => ⟨hist, lock, deb⟩
    · rintro ⟨hist, key, pending, lock, deb⟩
      rw [hist, deb]
      exact ⟨histPush_succ _ _, lock, pending, key, rfl⟩
  · exact ⟨fun _ => rfl, fun hopen => .inl ⟨rfl, hopen, rfl⟩⟩

end Sys2Proof.Machine
end

section
/-! SUPPORT. The debounce window: what a command can do under the lock-out, one step of the host's
events, and the window over a run (41_keypad.md R125, R126, R145, R148). -/

namespace Sys2Proof.Machine

/-! ### One command under the lock-out -/

/-- What command `i` can make of a state `s` with the lock-out set: the history stays, only a
release at an expired debounce timer opens the lock-out, and only a timer command writes that timer. -/
structure UnderLockOut (s : State) (i : Instr) (v : State) : Prop where
  hist : v.hist = s.hist
  lock : v.debounceActive = true ∨ (i = .kpRelease ∨ i = .kpTick) ∧ check s .deb = true
  deb : v.deb = s.deb ∨ TimerCommand s .deb i v.deb

theorem underLockOut_of_same {s v : State} {i : Instr} (h : s.debounceActive = true)
    (hhist : v.hist = s.hist) (hlock : v.debounceActive = s.debounceActive)
    (hdeb : v.deb = s.deb) : UnderLockOut s i v :=
  ⟨hhist, .inl (hlock.trans h), .inl hdeb⟩

theorem TimerCommand.underLockOut {s : State} {t : TimerId} {i : Instr} {x : Timer}
    (h : s.debounceActive = true) (hx : TimerCommand s t i x) :
    UnderLockOut s i (setTimer t x s) := by
  cases t with
  | deb => exact ⟨rfl, .inl h, .inr hx⟩
  | scan => exact underLockOut_of_same h rfl rfl rfl
  | smp => exact underLockOut_of_same h rfl rfl rfl

/-- A release clears the lock-out only when the debounce timer has expired (R126). -/
theorem pRelease_lock {s : State} (h : s.debounceActive = true) :
    (pRelease s).debounceActive = true ∨ check s .deb = true := by
  obtain ⟨-, hexp, -⟩ | ⟨-, he⟩ := pRelease_cases s
  · exact .inr hexp
  · rw [he]
    exact .inl h

theorem pRelease_underLockOut {s : State} (h : s.debounceActive = true) :
    UnderLockOut s .kpRelease (pRelease s) :=
  ⟨pRelease_hist s, (pRelease_lock h).imp_right fun hexp => ⟨.inl rfl, hexp⟩, .inl (pRelease_deb s)⟩

/-- A tick under the lock-out is a release, whether it scans or not (R129). -/
theorem keypadTick_underLockOut {s : State} (h : s.debounceActive = true) :
    UnderLockOut s .kpTick (keypadTick s) := by
  by_cases hexp : check s .scan = true
  · obtain ⟨hist, lock, deb, -⟩ := scanBranch_locked h
    have hcheck : check (scanBranch s) .deb = check s .deb :=
      check_congr deb (scanBranch_params s) (scanBranch_now s)
    rw [keypadTick, if_pos hexp]
    refine ⟨(pRelease_hist _).trans hist, ?_, .inl ((pRelease_deb _).trans deb)⟩
    exact (pRelease_lock lock).imp_right fun hd => ⟨.inr rfl, hcheck ▸ hd⟩
  · rw [keypadTick_of_not_expired hexp]
    exact ⟨pRelease_hist s, (pRelease_lock h).imp_right fun hd => ⟨.inr rfl, hd⟩,
      .inl (pRelease_deb s)⟩

theorem Effect.underLockOut {s v : State} {i : Instr} (he : Effect s i v)
    (h : s.debounceActive = true) (hi : ∀ d, i ≠ .kpInit d) : UnderLockOut s i v := by
  cases he with
  | timer hx => exact hx.underLockOut h
  | kpInit deb => exact absurd rfl (hi deb)
  | tick => exact keypadTick_underLockOut h
  | release => exact pRelease_underLockOut h
  | capture =>
    rw [pCapture_locked (s := pDecode s) h]
    exact underLockOut_of_same h rfl rfl rfl
  | dacSet mv | dacTick mv =>
    rw [writeDac_eq]
    exact underLockOut_of_same h rfl rfl rfl
  | _ => exact underLockOut_of_same h rfl rfl rfl

/-- Settles O44, effect by effect. -/
theorem lockOutSuppressesPushes : Obligations.LockOutSuppressesPushes := by
  unfold Obligations.LockOutSuppressesPushes
  intro i s u h hi hu
  obtain ⟨r, v, rfl, he⟩ := exec_effect hu
  obtain ⟨hist, lock, -⟩ := he.underLockOut h hi
  exact ⟨hist, fun hopen => lock.resolve_left (by simpa using hopen)⟩

/-! ### A disabled debounce timer -/

/-- The commands that leave a disabled debounce timer disabled (40_timer.md R104 to R110). -/
theorem TimerCommand.enabled_deb {s : State} {i : Instr} {x : Timer} (hx : TimerCommand s .deb i x)
    (hinit : ∀ p, i ≠ .tmrInitDeb p) (hen : i ≠ .tmrEnDeb) (h : s.deb.enabled = false) :
    x.enabled = false := by
  cases hx with
  | init _ p => exact absurd rfl (hinit p)
  | en => exact absurd rfl hen
  | dis => rfl
  | advn | advp | setp => exact h

/-- Settles O46: a disabled timer cannot expire; enabled past its deadline, it has. -/
theorem disabledDebounceTimerLocks : Obligations.DisabledDebounceTimerLocks := by
  unfold Obligations.DisabledDebounceTimerLocks
  intro s hlock hdis
  refine ⟨fun i u hi hinit hen hu => ?_, fun hkp hreached => ?_⟩
  · obtain ⟨r, v, rfl, he⟩ := exec_effect hu
    obtain ⟨hist, lock, deb⟩ := he.underLockOut hlock hi
    have hexp : ¬ check s .deb = true := by simp [check, hdis]
    refine ⟨lock.resolve_right fun h => hexp h.2, hist, ?_⟩
    obtain hsame | hx := deb
    · rw [respond_deb, hsame, hdis]
    · exact hx.enabled_deb hinit hen hdis
  · have hexp : check (respond 0 (timerSetEnabled .deb true s)) .deb = true := hreached
    rw [execAll_cons (t := respond 0 (timerSetEnabled .deb true s)) rfl, execAll_single]
    refine ⟨_, exec_of_enabled rfl hkp, ?_⟩
    rw [pRelease_of_expired (by exact hlock) hexp]
    exact ⟨rfl, rfl, rfl⟩

/-! ### One event of the host -/

/-- What the block can make of the host's event `e` in the state `s`. -/
inductive Performed (s : State) : HostEvent → State → Prop
  | reset : Performed s .reset (hardwareReset s)
  | idle : Performed s .idle s
  | reserved {w : CommandWord} {n : Nat} {c : Columns} {e : DecodeError}
      (hw : decode w = .error e) : Performed s (.command w n c) (respond 0 (sampleInputs n c s))
  | command {w : CommandWord} {n : Nat} {c : Columns} {i : Instr} {v : State} (r : Response)
      (hw : decode w = .ok i) (he : Effect (sampleInputs n c s) i v) :
      Performed s (.command w n c) (respond r v)

theorem performCommand_performs (w : CommandWord) (n : Nat) (c : Columns) (s : State) :
    ∃ u, performCommand w (sampleInputs n c s) = .next u ∧ Performed s (.command w n c) u := by
  cases hw : decode w with
  | ok i =>
    obtain ⟨r, v, hv, he⟩ := exec_answersEffect i (sampleInputs n c s)
    exact ⟨_, (performCommand_of_decode hw _).trans hv, .command r hw he⟩
  | error e => exact ⟨_, performCommand_of_error hw _, .reserved hw⟩

/-- A step performs the host's next event. -/
theorem step_performs {s : State} {e : HostEvent} {rest : List HostEvent} (hs : s.host = e :: rest) :
    ∃ u, step s = .next u ∧ Performed { s with host := rest } e u := by
  cases e with
  | reset => exact ⟨_, step_of_reset hs, .reset⟩
  | idle => exact ⟨_, step_of_idle hs, .idle⟩
  | command w n c =>
    rw [step_of_command hs]
    exact performCommand_performs w n c _

/-- No event changes the parameters or what the host still issues (log 1, log 5). -/
theorem Performed.params_host {s u : State} {e : HostEvent} (h : Performed s e u) :
    u.params = s.params ∧ u.host = s.host := by
  cases h with
  | reset | idle | reserved => exact ⟨rfl, rfl⟩
  | command r hw he =>
    obtain ⟨hparams, -, -, hhost, -⟩ := he.sameInputs
    exact ⟨hparams, hhost⟩

/-! ### A run inside the window -/

/-- History, lock-out and debounce deadline are as in `s`, where the lock-out is set. -/
structure KeepsWindow (s u : State) : Prop where
  hist : u.hist = s.hist
  lock : u.debounceActive = true
  deadline : u.deb.nextDeadline = s.deb.nextDeadline

theorem TimerCommand.nextDeadline_deb {s : State} {i : Instr} {x : Timer}
    (hx : TimerCommand s .deb i x) (hi : movesDebounce i = false) :
    x.nextDeadline = s.deb.nextDeadline := by
  cases hx with
  | init | advn | advp => cases hi
  | setp | en | dis => rfl

/-- A command inside the window keeps it (R148). -/
theorem Effect.keepsWindow {s v : State} {i : Instr} (he : Effect s i v)
    (hlock : s.debounceActive = true) (hclosed : reached s.params s.now s.deb.nextDeadline = false)
    (hi : movesDebounce i = false) : KeepsWindow s v := by
  have hinit : ∀ d, i ≠ .kpInit d := by
    rintro d rfl
    cases hi
  have hexp : ¬ check s .deb = true := by simp [check, hclosed]
  obtain ⟨hist, lock, deb⟩ := he.underLockOut hlock hinit
  refine ⟨hist, lock.resolve_right fun h => hexp h.2, ?_⟩
  obtain hsame | hx := deb
  · rw [hsame]
  · exact hx.nextDeadline_deb hi

theorem Performed.keepsWindow {s u : State} {e : HostEvent} (h : Performed s e u)
    (hlock : s.debounceActive = true) (he : WindowEvent s e) : KeepsWindow s u := by
  cases h with
  | reset => exact he.elim
  | idle | reserved => exact ⟨rfl, hlock, rfl⟩
  | command r hw heff =>
    obtain ⟨hist, lock, deadline⟩ := heff.keepsWindow hlock he.1 (he.2 _ hw)
    exact ⟨hist, lock, deadline⟩

/-- The window that an event is inside of is given by the parameters and the deadline. -/
theorem WindowEvent.congr {s u : State} {e : HostEvent} (hparams : u.params = s.params)
    (hdeadline : u.deb.nextDeadline = s.deb.nextDeadline) (he : WindowEvent s e) :
    WindowEvent u e := by
  cases e with
  | reset => exact he
  | idle => trivial
  | command w n c =>
    unfold WindowEvent at he ⊢
    rwa [hparams, hdeadline]

/-- Settles O45, by induction on the events the host issues. -/
theorem windowHoldsOverARun : Obligations.WindowHoldsOverARun := by
  unfold Obligations.WindowHoldsOverARun
  intro s hlock hwin
  generalize hes : s.host = es at hwin ⊢
  induction es generalizing s with
  | nil => exact ⟨s, rfl, rfl, hlock, rfl, hes⟩
  | cons e rest ih =>
    obtain ⟨v, hstep, hv⟩ := step_performs hes
    obtain ⟨hparams, hhost⟩ := hv.params_host
    obtain ⟨hist, lock, deadline⟩ := hv.keepsWindow hlock (hwin e List.mem_cons_self)
    obtain ⟨u, hrun, uhist, ulock, udeadline, uhost⟩ := ih v lock hhost fun e' he' =>
      (hwin e' (List.mem_cons_of_mem e he')).congr hparams deadline
    exact ⟨u, (run_succ hstep).trans hrun, uhist.trans hist, ulock, udeadline.trans deadline, uhost⟩

end Sys2Proof.Machine
end

section
/-! SUPPORT. The history over a run: one step pushes the key it captures, and nothing else
(41_keypad.md R125, R147). -/

namespace Sys2Proof.Machine

/-! ### One command -/

/-- From `s` to `u` the history changes by the key captured, if one is: where the lock-out is set,
the decoded key is pushed, and elsewhere the history stays (R125). -/
inductive TracksCapture (s u : State) : Prop
  | quiet (hist : u.hist = s.hist) (lock : u.debounceActive = true → s.debounceActive = true)
  | captured (before : s.debounceActive = false) (after : u.debounceActive = true)
      (hist : u.hist = histPush u.decodedKey s.hist)

theorem tracksCapture_of_open {s u : State} (hopen : s.debounceActive = false)
    (h : StaysOpen s u ∨ BeginsWindow s u) : TracksCapture s u := by
  obtain hstay | hbegin := h
  · exact .quiet hstay.hist fun hlock => absurd hlock (by simp [hstay.lock])
  · exact .captured hopen hbegin.lock hbegin.hist

theorem Effect.tracksCapture {s v : State} {i : Instr} (he : Effect s i v) (h : s.Inv)
    (hi : ∀ d, i ≠ .kpInit d) : TracksCapture s v := by
  obtain hlock | hopen := Bool.eq_false_or_eq_true s.debounceActive
  · exact .quiet (he.underLockOut hlock hi).hist fun _ => hlock
  · cases he with
    | kpInit deb => exact absurd rfl (hi deb)
    | tick => exact tracksCapture_of_open hopen (keypadTick_open h hopen)
    | capture => exact tracksCapture_of_open hopen (pCapture_pDecode_open hopen)
    | release =>
      rw [pRelease_of_not_expired (by simp [hopen])]
      exact .quiet rfl id
    | setdz | clrdz | ack | en | dis => exact .quiet rfl id
    | _ => exact .quiet (by simp) (by simp)

/-! ### One step -/

theorem Performed.tracksCapture {s u : State} {e : HostEvent} (hp : Performed s e u) (h : s.Inv)
    (he : KeepsHistory e) : TracksCapture s u := by
  cases hp with
  | reset => exact he.elim
  | idle | reserved => exact .quiet rfl id
  | @command _ n c _ _ r hw heff =>
    obtain ⟨hist, lock⟩ | ⟨before, after, hist⟩ :=
      heff.tracksCapture (h.sampled n c) (he _ hw)
    · exact .quiet hist lock
    · exact .captured before after hist

/-- One step answers a next state, which tracks the capture, with the events still to come. -/
theorem step_tracksCapture {s : State} (h : s.Inv) (hk : ∀ e ∈ s.host, KeepsHistory e) :
    ∃ u, step s = .next u ∧ (∀ e ∈ u.host, KeepsHistory e) ∧ TracksCapture s u := by
  cases hs : s.host with
  | nil => exact ⟨s, step_of_no_event hs, hk, .quiet rfl id⟩
  | cons e rest =>
    rw [hs, List.forall_mem_cons] at hk
    obtain ⟨u, hstep, hu⟩ := step_performs hs
    refine ⟨u, hstep, ?_, ?_⟩
    · rw [hu.params_host.2]
      exact hk.2
    · obtain ⟨hist, lock⟩ | ⟨before, after, hist⟩ := hu.tracksCapture (h.withHost rest) hk.1
      · exact .quiet hist lock
      · exact .captured before after hist

/-! ### A run -/

/-- The history with the keys of a list pushed onto it, the first of them first. -/
def pushKeys (h : Vector KeyCode 10) (ks : List KeyCode) : Vector KeyCode 10 :=
  ks.foldl (fun h k => histPush k h) h

/-- The keys captured in a run of one step more. -/
theorem pushKeys_capturedKeys_succ {s u : State} (hstep : step s = .next u)
    (h : TracksCapture s u) (k : Nat) :
    pushKeys s.hist (capturedKeys (k + 1) s) = pushKeys u.hist (capturedKeys k u) := by
  rw [capturedKeys, hstep]
  cases h with
  | quiet hist lock =>
    have hnone : (!s.debounceActive && u.debounceActive) = false := by
      cases hu : u.debounceActive
      · simp
      · simp [lock hu]
    simp only [hnone, Bool.false_eq_true, if_false, List.nil_append, hist]
  | captured before after hist =>
    simp only [before, after, Bool.not_false, Bool.and_self, if_true, hist]
    rfl

/-- Over a run the history is the old one with the keys captured pushed onto it. -/
theorem run_hist_eq_pushKeys (k : Nat) {s : State} (h : s.Inv) (hk : ∀ e ∈ s.host, KeepsHistory e) :
    ∃ u, Host.Core.run Sys2Proof.core k s = .next u ∧
      u.hist = pushKeys s.hist (capturedKeys k s) := by
  induction k generalizing s with
  | zero => exact ⟨s, rfl, rfl⟩
  | succ k ih =>
    obtain ⟨v, hstep, hv, htracks⟩ := step_tracksCapture h hk
    obtain ⟨u, hrun, hu⟩ := ih (everyStepKeepsTheInvariant s v h hstep) hv
    refine ⟨u, (run_succ hstep).trans hrun, ?_⟩
    rw [hu, pushKeys_capturedKeys_succ hstep htracks]

theorem eq_emptyHistory {h : Vector KeyCode 10} (hh : ∀ i : Fin 10, h.get i = 0x1F) :
    h = Vector.replicate 10 keyNone :=
  Vector.ext fun i hi => (hh ⟨i, hi⟩).trans (emptyHistory_get ⟨i, hi⟩).symm

/-- Settles O48: the run pushes its captured keys onto the empty history, newest in front. -/
theorem historyKeepsTheLastTen : Obligations.HistoryKeepsTheLastTen := by
  unfold Obligations.HistoryKeepsTheLastTen
  intro k s h hempty hk
  obtain ⟨u, hrun, hu⟩ := run_hist_eq_pushKeys k h hk
  refine ⟨u, hrun, fun i => ?_⟩
  rw [hu, eq_emptyHistory hempty]
  exact pushedKeysAreNewestFirst _ i

end Sys2Proof.Machine
end

section
/-! SUPPORT. The DAC output stage: the quantiser, what `DAC.SET` and `DAC.TICK` answer, and which
commands write the stage (42_dac.md R161 to R164). -/

namespace Sys2Proof.Machine

/-! ### The quantiser -/

/-- Saturation as a clamp between the two ends of the range (R161). -/
theorem saturate_eq_max_min (mv : Int) : saturate mv = max (-5000) (min mv 4400) := by
  unfold saturate
  split_ifs <;> omega

/-- The code is the floored quotient itself, which fits its eight bits (R161). -/
theorem quant_toNat (mv : Int) :
    ((quant mv).toNat : Int) = (max (-5000) (min mv 4400) + 5000) * 255 / 9400 := by
  rw [quant, saturate_eq_max_min, BitVec.toNat_ofNat]
  omega

theorem quant_monotone {a b : Int} (h : a ≤ b) : (quant a).toNat ≤ (quant b).toNat := by
  have ha := quant_toNat a
  have hb := quant_toNat b
  omega

/-! ### `DAC.SET` and `DAC.TICK` -/

theorem exec_dacSet (mv : Int) (s : State) :
    exec (.dacSet mv) s =
      .next { s with dacCode := quant mv, dacLines := quant mv, resp := 0 } := by
  have hexec : exec (.dacSet mv) s = answer 0 (writeDac mv s) := rfl
  rw [hexec, writeDac_eq, answer_eq]
  rfl

/-- The code that `DAC.SET` leaves (R162). -/
theorem exec_dacSet_dacCode {mv : Int} {s u : State} (h : exec (.dacSet mv) s = .next u) :
    u.dacCode = quant mv := by
  rw [exec_dacSet] at h
  cases h
  rfl

/-- `DAC.TICK` at an expired sample timer takes a sample (R163). -/
theorem exec_dacTick_of_expired {s : State} (h : check s .smp = true) (mv : Int) :
    exec (.dacTick mv) s = .next (respond 1 (writeDac mv (timerAdvanceByPeriod .smp s))) :=
  if_pos h

/-- `DAC.TICK` without an expired sample timer holds the state (R163). -/
theorem exec_dacTick_of_not_expired {s : State} (h : ¬ check s .smp = true) (mv : Int) :
    exec (.dacTick mv) s = .next { s with resp := 0 } :=
  if_neg h

/-- Settles O49: the bounds of the floor, and the lines driven with the code. -/
theorem dacSetHoldsQuantisedValue : Obligations.DacSetHoldsQuantisedValue := by
  unfold Obligations.DacSetHoldsQuantisedValue
  intro mv s v
  have hq : ((quant mv).toNat : Int) = (v + 5000) * 255 / 9400 := quant_toNat mv
  refine ⟨encodedWith_of_decodeFields fun _ => rfl, _, exec_dacSet mv s, ?_, ?_, fun _ => rfl, rfl⟩
  · rw [hq]
    exact Int.mul_ediv_self_le (by decide)
  · rw [hq, mul_add, mul_one]
    exact Int.lt_mul_ediv_self_add (by decide)

/-- Settles O51, from the monotone quantiser. -/
theorem quantiserIsMonotone : Obligations.QuantiserIsMonotone := by
  unfold Obligations.QuantiserIsMonotone
  intro a b s u v hab hu hv
  rw [exec_dacSet_dacCode hu, exec_dacSet_dacCode hv]
  exact quant_monotone hab

/-- Settles O50: the tick's two cases, with the comparator as an inequality. -/
theorem dacTickSamplesOnExpiry : Obligations.DacTickSamplesOnExpiry := by
  unfold Obligations.DacTickSamplesOnExpiry
  intro mv s expired
  have hcheck : check s .smp = true ↔ expired := check_iff s .smp
  rw [← hcheck]
  refine ⟨encodedWith_of_decodeFields fun _ => rfl,
    fun h => exec_dacTick_of_not_expired h mv, fun h => ?_⟩
  refine ⟨_, _, exec_dacTick_of_expired h mv, exec_dacSet mv s, ?_⟩
  rw [writeDac_eq]
  rfl

/-! ### What writes the stage -/

/-- The DAC stage has two writers, `DAC.SET` and a `DAC.TICK` that samples (R164). -/
theorem Effect.sameDac {s v : State} {i : Instr} (he : Effect s i v) (hset : ∀ mv, i ≠ .dacSet mv)
    (htick : (∃ mv, i = .dacTick mv) → check s .smp = false) : SameDac s v := by
  cases he with
  | dacSet mv => exact absurd rfl (hset mv)
  | dacTick mv h => exact absurd h (by simp [htick ⟨mv, rfl⟩])
  | kpInit deb =>
    rw [keypadInit_eq]
    exact ⟨rfl, rfl⟩
  | setdz | clrdz | ack | en | dis => exact ⟨rfl, rfl⟩
  | _ => simp [SameDac]

/-- Settles O52, effect by effect. -/
theorem dacLinesHoldBetweenWrites : Obligations.DacLinesHoldBetweenWrites := by
  unfold Obligations.DacLinesHoldBetweenWrites
  intro i s u hu hset htick
  obtain ⟨r, v, rfl, he⟩ := exec_effect hu
  obtain ⟨hcode, hlines⟩ := he.sameDac hset htick
  exact ⟨hcode, fun l => congrArg (fun x => x.getLsbD l.val) hlines⟩

end Sys2Proof.Machine
end

section
/-! SUPPORT. Totality of the step, and the locality of the keypad and DAC units (60_exceptions.md
R170, R172): an operation reads none of another unit when it commutes with replacing that unit. What
a unit does not read it does not write either, for the replacement may be the unit's own values. -/

namespace Sys2Proof.Machine

/-! ### Every step completes -/

theorem exec_completes (i : Instr) (s : State) : ∃ u, exec i s = .next u := by
  obtain ⟨r, v, h, -⟩ := exec_answersEffect i s
  exact ⟨_, h⟩

/-- A command word completes, a reserved one too (30_encoding.md R91). -/
theorem performCommand_completes (w : CommandWord) (s : State) :
    ∃ u, performCommand w s = .next u := by
  cases hw : decode w with
  | ok i =>
    rw [performCommand_of_decode hw]
    exact exec_completes i s
  | error e => exact ⟨_, performCommand_of_error hw s⟩

theorem step_completes (s : State) : ∃ u, step s = .next u := by
  match hs : s.host with
  | [] => exact ⟨_, step_of_no_event hs⟩
  | .idle :: rest => exact ⟨_, step_of_idle hs⟩
  | .reset :: rest => exact ⟨_, step_of_reset hs⟩
  | .command w n c :: rest =>
    rw [step_of_command hs]
    exact performCommand_completes w _

/-- Settles O7, from the totality of the step and of each command. -/
theorem everyStepCompletes : Obligations.EveryStepCompletes := ⟨step_completes, exec_completes⟩

/-- Settles O6, from the step on an empty host list and on an idle event. -/
theorem idleStepHoldsState : Obligations.IdleStepHoldsState :=
  fun _ => ⟨step_of_no_event, fun _ => step_of_idle⟩

/-! ### Commands that commute with a replacement of fields -/

/-- Command `i` neither reads nor writes what `g` replaces: replaced before it or after it, the
outcome and the response are the same. -/
def Ignores (i : Instr) (g : State → State) : Prop := ∀ s, exec i (g s) = mapNext g (exec i s)

/-- An operation behind a guard that does not see what `g` replaces commutes with it. -/
theorem commute_guarded {b : State → Bool} {f g : State → State} (hb : ∀ s, b (g s) = b s)
    (hf : Function.Commute f g) : Function.Commute (fun s => if b s then f s else s) g := by
  intro s
  simp only [hb]
  split
  · exact hf s
  · rfl

theorem ignores_of_read {i : Instr} {g : State → State} {r : State → Response}
    (hi : ∀ s, exec i s = answer (r s) s) (hr : ∀ s, r (g s) = r s)
    (hg : ∀ a, Function.Commute (respond a) g) : Ignores i g := by
  intro s
  rw [hi, hi, hr, answer, hg]
  rfl

theorem ignores_of_operation {i : Instr} {f g : State → State}
    (hi : ∀ s, exec i s = answer 0 (f s)) (hf : Function.Commute f g)
    (hg : ∀ a, Function.Commute (respond a) g) : Ignores i g := by
  intro s
  rw [hi, hi, hf, answer, hg]
  rfl

/-- What a command ignores it leaves as it was. -/
theorem Ignores.fixed {i : Instr} {g : State → State} {s u : State} (h : Ignores i g)
    (hs : g s = s) (hu : exec i s = .next u) : g u = u := by
  have hmap := h s
  rw [hs, hu] at hmap
  exact (Host.Outcome.next.inj hmap).symm

/-! ### The keypad unit ignores the sample timer and the DAC stage -/

section
variable (x : Timer) (code lines : BitVec 8)

theorem commute_pCapture_withSampleUnit :
    Function.Commute pCapture (withSampleUnit x code lines) :=
  commute_guarded (fun _ => rfl) fun _ => rfl

theorem commute_pRelease_withSampleUnit :
    Function.Commute pRelease (withSampleUnit x code lines) :=
  commute_guarded (b := fun s => s.debounceActive && check s .deb) (fun _ => rfl) fun _ => rfl

theorem commute_pCapture_pDecode_withSampleUnit :
    Function.Commute (pCapture ∘ pDecode) (withSampleUnit x code lines) :=
  (commute_pCapture_withSampleUnit x code lines).comp_left fun _ => rfl

theorem commute_scanBranch_withSampleUnit :
    Function.Commute scanBranch (withSampleUnit x code lines) :=
  (commute_pCapture_pDecode_withSampleUnit x code lines).comp_left
    (f' := pSample ∘ pRowAdv ∘ timerAdvanceByPeriod .scan) fun _ => rfl

theorem commute_keypadTick_withSampleUnit :
    Function.Commute keypadTick (withSampleUnit x code lines) :=
  (commute_pRelease_withSampleUnit x code lines).comp_left
    (commute_guarded (b := fun s => check s .scan) (fun _ => rfl)
      (commute_scanBranch_withSampleUnit x code lines))

/-- A keypad command that answers without writing (41_keypad.md R135, R138, R140, R141). -/
theorem ignores_withSampleUnit_of_read {i : Instr} {r : State → Response}
    (hi : ∀ s, exec i s = answer (r s) s)
    (hr : ∀ s, r (withSampleUnit x code lines s) = r s) : Ignores i (withSampleUnit x code lines) :=
  ignores_of_read hi hr fun _ _ => rfl

theorem ignores_withSampleUnit_of_operation {i : Instr} {f : State → State}
    (hi : ∀ s, exec i s = answer 0 (f s)) (hf : Function.Commute f (withSampleUnit x code lines)) :
    Ignores i (withSampleUnit x code lines) :=
  ignores_of_operation hi hf fun _ _ => rfl

/-- The enable gate is the keypad's own (41_keypad.md R120). -/
theorem ignores_withSampleUnit_of_gated {i : Instr} {f : State → State}
    (hi : ∀ s, exec i s = answer 0 (whenEnabled f s))
    (hf : Function.Commute f (withSampleUnit x code lines)) :
    Ignores i (withSampleUnit x code lines) :=
  ignores_withSampleUnit_of_operation x code lines hi (commute_guarded (fun _ => rfl) hf)

theorem keypad_ignores_withSampleUnit {i : Instr} (h : unitOf i = 4) :
    Ignores i (withSampleUnit x code lines) := by
  cases i with
  | kpInit | kpEn | kpDis =>
    exact ignores_withSampleUnit_of_operation _ _ _ (fun _ => rfl) fun _ => rfl
  | kpGetkey | kpIsdz | kpStat | kpHist =>
    exact ignores_withSampleUnit_of_read _ _ _ (fun _ => rfl) fun _ => rfl
  | kpRowadv | kpSample | kpDecode | kpSetdz | kpClrdz | kpAck =>
    exact ignores_withSampleUnit_of_gated _ _ _ (fun _ => rfl) fun _ => rfl
  | kpTick =>
    exact ignores_withSampleUnit_of_gated _ _ _ (fun _ => rfl)
      (commute_keypadTick_withSampleUnit _ _ _)
  | kpCapture =>
    exact ignores_withSampleUnit_of_gated _ _ _ (fun _ => rfl)
      (commute_pCapture_pDecode_withSampleUnit _ _ _)
  | kpRelease =>
    exact ignores_withSampleUnit_of_gated _ _ _ (fun _ => rfl)
      (commute_pRelease_withSampleUnit _ _ _)
  | _ => simp [unitOf, opcodeByte] at h

end

/-! ### The DAC unit ignores the keypad -/

/-- The commands of unit 8 (30_encoding.md R81). -/
theorem dacSet_or_dacTick_of_unitOf {i : Instr} (h : unitOf i = 8) :
    ∃ mv, i = .dacSet mv ∨ i = .dacTick mv := by
  cases i with
  | dacSet mv => exact ⟨mv, .inl rfl⟩
  | dacTick mv => exact ⟨mv, .inr rfl⟩
  | _ => simp [unitOf, opcodeByte] at h

/-- `DAC.TICK` tests the sample timer, which no replaced keypad touches (42_dac.md R163). -/
theorem dacTick_ignores_withKeypadUnit (mv : Int) (k : State) :
    Ignores (.dacTick mv) (withKeypadUnit k) := by
  intro s
  have hcheck : check (withKeypadUnit k s) .smp = check s .smp := rfl
  by_cases h : check s .smp = true
  · rw [exec_dacTick_of_expired h, exec_dacTick_of_expired (hcheck.trans h)]
    rfl
  · rw [exec_dacTick_of_not_expired h, exec_dacTick_of_not_expired (by rwa [hcheck])]
    rfl

theorem dac_ignores_withKeypadUnit {i : Instr} (h : unitOf i = 8) (k : State) :
    Ignores i (withKeypadUnit k) := by
  obtain ⟨mv, rfl | rfl⟩ := dacSet_or_dacTick_of_unitOf h
  · exact ignores_of_operation (f := writeDac mv) (fun _ => rfl) (fun _ => rfl) fun _ _ => rfl
  · exact dacTick_ignores_withKeypadUnit mv k

/-- Settles O54, unit by unit. -/
theorem unitsReadOnlyTheirOwn : Obligations.UnitsReadOnlyTheirOwn :=
  fun _ s => ⟨fun h x code lines => keypad_ignores_withSampleUnit x code lines h s,
    fun h k => dac_ignores_withKeypadUnit h k s⟩

/-! ### What a unit ignores it does not write -/

/-- `KP.INIT` alone writes the line configuration (41_keypad.md R128). -/
theorem Effect.lineCfg {s v : State} {i : Instr} (he : Effect s i v) (hi : ∀ d, i ≠ .kpInit d) :
    v.lineCfg = s.lineCfg := by
  cases he with
  | kpInit deb => exact absurd rfl (hi deb)
  | setdz | clrdz | ack | en | dis => rfl
  | _ => simp

theorem keypad_keeps_sampleUnit {i : Instr} {s u : State} (hi : unitOf i = 4)
    (hu : exec i s = .next u) : u.smp = s.smp ∧ SameDac s u := by
  rw [← (keypad_ignores_withSampleUnit s.smp s.dacCode s.dacLines hi).fixed rfl hu]
  exact ⟨rfl, rfl, rfl⟩

theorem dac_keeps_keypadUnit {i : Instr} {s u : State} (hi : unitOf i = 8)
    (hu : exec i s = .next u) : SameKeypad s u ∧ u.scan = s.scan ∧ u.deb = s.deb := by
  rw [← (dac_ignores_withKeypadUnit hi s).fixed rfl hu]
  exact ⟨⟨rfl, rfl, rfl, rfl, rfl, rfl, rfl, rfl, rfl, rfl, rfl⟩, rfl, rfl⟩

theorem dac_keeps_lineCfg {i : Instr} {s u : State} (hi : unitOf i = 8)
    (hu : exec i s = .next u) : u.lineCfg = s.lineCfg := by
  obtain ⟨r, v, rfl, he⟩ := exec_effect hu
  obtain ⟨mv, rfl | rfl⟩ := dacSet_or_dacTick_of_unitOf hi <;> exact he.lineCfg nofun

/-- Settles O53, from the locality of the reads and, for the line configuration, its one writer. -/
theorem unitsWriteOnlyTheirOwn : Obligations.UnitsWriteOnlyTheirOwn := by
  unfold Obligations.UnitsWriteOnlyTheirOwn
  intro i s u hu
  refine ⟨fun hi => keypad_keeps_sampleUnit hi hu, fun hi => ?_⟩
  obtain ⟨hkeypad, hscan, hdeb⟩ := dac_keeps_keypadUnit hi hu
  exact ⟨hkeypad, hscan, hdeb, dac_keeps_lineCfg hi hu⟩

end Sys2Proof.Machine
end

section
/-! SUPPORT. Reset and hazards (70_reset_and_hazards.md R190, R191, R195, R199): the burst of a late
sample timer, the period that the next advance uses, the reset state and the ticks that do nothing in
it. -/

namespace Sys2Proof.Machine

/-! ### Runs of commands -/

/-- Commands performed after those that lead to `t` start from `t`. -/
theorem execAll_append {is : List Instr} {s t : State} (h : execAll is s = .next t)
    (js : List Instr) : execAll (is ++ js) s = execAll js t := by
  induction is generalizing s with
  | nil =>
    cases h
    rfl
  | cons i is ih =>
    obtain ⟨v, hv⟩ := exec_completes i s
    rw [execAll_cons hv] at h
    rw [List.cons_append, execAll_cons hv, ih h]

/-- Two timer commands on `t` leave the record of the second, made from that of the first. -/
theorem execAll_timerCommands {s : State} {t : TimerId} {i j : Instr} {x y : Timer}
    (hx : TimerCommand s t i x) (hy : TimerCommand (respond 0 (setTimer t x s)) t j y) :
    ∃ u, execAll [i, j] s = .next u ∧ timerOf u t = y := by
  obtain ⟨u, hu, htimer, -⟩ := hy.writes
  exact ⟨u, by rw [execAll_cons hx.exec_eq, execAll_single, hu], htimer⟩

/-! ### The catch-up burst -/

/-- The comparator of an enabled timer `e` microseconds after `n0`, its deadline `q` microseconds
after `n0`: late by less than half the modulus, or early by a legal period at most (R101 (a)). -/
theorem check_of_lateness {s : State} {t : TimerId} {n0 q e : Nat} (hs : s.params.LegalClock)
    (hen : (timerOf s t).enabled = true)
    (hd : (timerOf s t).nextDeadline = (n0 + q) % modulus s.params)
    (hn : s.now = (n0 + e) % modulus s.params) (hlate : e < modulus s.params / 2)
    (hearly : q ≤ e + periodMax s.params) : check s t = true ↔ q ≤ e := by
  obtain ⟨k, hk, hk1, hk2⟩ := modulus_even hs
  unfold periodMax at hearly
  rw [check, hen, Bool.true_and, reached, decide_eq_true_iff, hd, hn]
  by_cases h : q ≤ e
  · rw [tdiff_after _ h (by omega)]
    omega
  · rw [tdiff_before _ (by omega) (by omega)]
    omega

/-- `u` is `s` after `j` samples taken at one clock value: the deadline of `SMP` has advanced by `j`
periods, and the last sample, if any, answered 1 (42_dac.md R163). -/
structure SamplesTaken (j : Nat) (s u : State) : Prop where
  params : u.params = s.params
  now : u.now = s.now
  smp : u.smp = { s.smp with
    nextDeadline := (s.smp.nextDeadline + j * s.smp.period) % modulus s.params }
  resp : 1 ≤ j → u.resp = 1

/-- No sample leaves the state as it was. -/
theorem samplesTaken_zero {s : State} (hd : s.smp.nextDeadline < modulus s.params) :
    SamplesTaken 0 s s where
  params := rfl
  now := rfl
  smp := by rw [Nat.zero_mul, Nat.add_zero, Nat.mod_eq_of_lt hd]
  resp := nofun

/-- A `DAC.TICK` at an expired sample timer takes one sample more. -/
theorem SamplesTaken.tick {j : Nat} {s u : State} (h : SamplesTaken j s u)
    (hexp : check u .smp = true) (mv : Int) :
    ∃ v, exec (.dacTick mv) u = .next v ∧ SamplesTaken (j + 1) s v := by
  refine ⟨_, exec_dacTick_of_expired hexp mv, by simp [h.params], by simp [h.now], ?_, fun _ => rfl⟩
  simp only [respond_smp, writeDac_eq, timerAdvanceByPeriod_eq, setTimer_smp_smp, timerOf_smp,
    h.smp, h.params, tadd, Nat.mod_add_mod, Nat.add_mul, Nat.one_mul, Nat.add_assoc]

section
variable {s : State} {late : Nat} (hs : s.params.LegalClock) (hsmp : Timer.Legal s.params s.smp)
  (hen : s.smp.enabled = true)
  (hn : s.now = (s.smp.nextDeadline + late) % modulus s.params)
  (hlate : late < modulus s.params / 2)
include hs hsmp hen hn hlate

/-- In the burst, the sample timer is expired until the samples taken make up for the lateness. -/
theorem SamplesTaken.check_smp_iff {j : Nat} {u : State} (h : SamplesTaken j s u)
    (hj : j ≤ late / s.smp.period + 1) :
    check u .smp = true ↔ j ≤ late / s.smp.period := by
  obtain ⟨-, hp1, hp⟩ := hsmp
  have hbound : j * s.smp.period ≤ late + periodMax s.params :=
    calc j * s.smp.period ≤ (late / s.smp.period + 1) * s.smp.period := Nat.mul_le_mul_right _ hj
      _ = late / s.smp.period * s.smp.period + s.smp.period := Nat.succ_mul ..
      _ ≤ late + periodMax s.params := Nat.add_le_add (Nat.div_mul_le_self ..) hp
  rw [Nat.le_div_iff_mul_le hp1]
  rw [← h.params] at hs hn hlate hbound
  exact check_of_lateness hs (by rw [timerOf_smp, h.smp, hen])
    (by rw [timerOf_smp, h.smp, h.params]) (h.now.trans hn) hlate hbound

/-- The burst takes one sample per tick (70_reset_and_hazards.md R195). -/
theorem execAll_dacTicks (mv : Int) {j : Nat} (hj : j ≤ late / s.smp.period + 1) :
    ∃ u, execAll (List.replicate j (.dacTick mv)) s = .next u ∧ SamplesTaken j s u := by
  induction j with
  | zero => exact ⟨s, rfl, samplesTaken_zero hsmp.1⟩
  | succ j ih =>
    obtain ⟨u, hu, htaken⟩ := ih (Nat.le_of_succ_le hj)
    have hexp := htaken.check_smp_iff hs hsmp hen hn hlate (Nat.le_of_succ_le hj)
    obtain ⟨v, hv, hnext⟩ := htaken.tick (hexp.2 (Nat.le_of_succ_le_succ hj)) mv
    exact ⟨v, by rw [List.replicate_succ', execAll_append hu, execAll_single, hv], hnext⟩

end

/-- Settles O26: after `late / period + 1` samples the deadline lies ahead of the clock. -/
theorem lateSampleTimerCatchesUp : Obligations.LateSampleTimerCatchesUp := by
  unfold Obligations.LateSampleTimerCatchesUp
  intro s mv late hs hsmp hen hn hlate
  have burst {j : Nat} := execAll_dacTicks hs hsmp hen hn hlate mv (j := j)
  refine ⟨fun j hj1 hj => ?_, ?_⟩
  · obtain ⟨u, hu, htaken⟩ := burst hj
    exact ⟨u, hu, htaken.resp hj1, by rw [htaken.smp]; rfl⟩
  · obtain ⟨u, hu, htaken⟩ := burst le_rfl
    have hexp := htaken.check_smp_iff hs hsmp hen hn hlate le_rfl
    exact ⟨u, hu, exec_dacTick_of_not_expired (fun h => Nat.not_succ_le_self _ (hexp.1 h)) mv⟩

/-! ### A new period -/

/-- Settles O24: `TMR.SETP` writes the period alone, and an advance reads it there. -/
theorem newPeriodTakesEffectAtNextAdvance : Obligations.NewPeriodTakesEffectAtNextAdvance := by
  unfold Obligations.NewPeriodTakesEffectAtNextAdvance
  intro t p s
  refine ⟨?_, ?_, ?_⟩
  · obtain ⟨u, hu, htimer, -⟩ := (TimerCommand.setp (s := s) t p).writes
    exact ⟨u, (execAll_single _ s).trans hu, by rw [htimer]⟩
  · obtain ⟨u, hu, htimer⟩ := execAll_timerCommands (.setp t p) (.advp t) (s := s)
    refine ⟨u, hu, ?_⟩
    rw [htimer, timerOf_respond, timerOf_setTimer_same, respond_params, setTimer_params]
    rfl
  · obtain ⟨u, hu, htimer⟩ := execAll_timerCommands (.setp t p) (.advn t) (s := s)
    refine ⟨u, hu, ?_⟩
    rw [htimer, timerOf_respond, timerOf_setTimer_same, respond_params, setTimer_params,
      respond_now, setTimer_now]
    rfl

/-! ### The reset state -/

/-- A disabled timer never expires (40_timer.md R103). -/
theorem check_of_disabled {s : State} {t : TimerId} (h : (timerOf s t).enabled = false) :
    check s t = false := by
  rw [check, h, Bool.false_and]

theorem exec_tmrCheck_of_disabled {s : State} {t : TimerId} (h : (timerOf s t).enabled = false) :
    exec (Instr.tmrCheck t) s = .next { s with resp := 0 } := by
  rw [exec_tmrCheck, check_of_disabled h]
  rfl

theorem exec_dacTick_of_disabled {s : State} (h : s.smp.enabled = false) (mv : Int) :
    exec (.dacTick mv) s = .next { s with resp := 0 } :=
  exec_dacTick_of_not_expired (by simp [check_of_disabled (t := .smp) h]) mv

theorem timerOf_resetWith (p : Params) (n : Nat) (t : TimerId) :
    timerOf (State.resetWith p n) t = Timer.reset := by
  cases t <;> rfl

theorem resetLineCfg_row : ∀ r, resetLineCfg.get (lineNumber (.row r)) = .driven := by decide

theorem resetLineCfg_col : ∀ c, resetLineCfg.get (lineNumber (.col c)) = .sensed := by decide

theorem resetLineCfg_dac : ∀ i, resetLineCfg.get (lineNumber (.dac i)) = .driven := by decide

/-- The one ROW line driven at reset is ROW0. -/
theorem lineRead_resetWith_row (p : Params) (n : Nat) :
    ∀ r : Fin 4, lineRead (State.resetWith p n) (.row r) = decide (r = 0) :=
  (by decide : ∀ r : Fin 4, (0b0001#4).getLsbD r.val = decide (r = 0))

/-- Settles O8: the fields of the reset state, and the ticks from its disabled keypad and timers. -/
theorem resetStateValues : Obligations.ResetStateValues := by
  unfold Obligations.ResetStateValues
  refine ⟨⟨0, rfl⟩, rfl, rfl, rfl, fun p n => ?_⟩
  refine ⟨timerOf_resetWith p n, rfl, rfl, rfl, rfl, rfl, rfl, emptyHistory_get, rfl, rfl, rfl,
    fun l => ?_, lineRead_resetWith_row p n, fun now c mv => ⟨?_, ?_, fun t => ?_⟩⟩
  · cases l with
    | row r => exact resetLineCfg_row r
    | col c => exact resetLineCfg_col c
    | dac i => exact resetLineCfg_dac i
  · exact disabledKeypadChangesNothing .kpTick _ (by decide) rfl
  · exact exec_dacTick_of_disabled rfl mv
  · exact exec_tmrCheck_of_disabled (by cases t <;> rfl)

/-- Settles O9: a reset step answers the reset values, whatever the state held. -/
theorem hardwareResetRestoresResetValues : Obligations.HardwareResetRestoresResetValues := by
  unfold Obligations.HardwareResetRestoresResetValues
  intro s rest hs
  exact ⟨_, step_of_reset hs, ⟨rfl, rfl, rfl⟩,
    ⟨rfl, rfl, rfl, rfl, rfl, rfl, rfl, rfl, rfl, rfl, rfl⟩, rfl, rfl, rfl, rfl⟩

end Sys2Proof.Machine
end
